-- ==== Sys2Proof/Word.lean ====
section
/-! DEFINITION. The bit vectors of `tmon_fcodec`: only what the spec treats as bits (register contents, host words,
host indices, fields of a command word). Lengths, offsets and buffer indices are computed on `Nat`, because the spec's
arithmetic on them does not wrap (00_scope.md R12). -/

namespace Sys2Proof

/-- A byte of a buffer or of a frame (00_scope.md R13). -/
abbrev Byte := BitVec 8

/-- A 16-bit register: a length, a channel pattern or the CRC register (10_state.md R20). -/
abbrev Half := BitVec 16

/-- What one host transaction moves: 32 bits (20_memory.md R50). -/
abbrev Word := BitVec 32

/-- A word index of the host port: 12 bits (20_memory.md R50). -/
abbrev HostIndex := BitVec 12

/-- The OP field of a command word: 4 bits (30_encoding.md R80). -/
abbrev OpField := BitVec 4

end Sys2Proof
end

