-- ==== Sys2Proof/Syntax.lean ====
section
/-! DEFINITION. The operations of `tmon_fcodec`, one constructor per row of the opcode table (30_encoding.md R81, R82).
An operation carries no operand: "Operations have no immediate fields. Every operand is a register or a buffer range
named by registers" (R84), and bits [31:4] of a command word are ignored (R80; log entry 11). -/

namespace Sys2Proof

/-- The sixteen operations a CTRL write can start (30_encoding.md R81). -/
inductive Instr where
  /-- 0x0 (43_control.md R180). -/
  | nop
  /-- 0x1 (40_checksum.md R102). -/
  | crcInit
  /-- 0x2 (40_checksum.md R103). -/
  | crcByte
  /-- 0x3 (40_checksum.md R104). -/
  | crcBuf
  /-- 0x4 (41_frame_encoder.md R121). -/
  | encode
  /-- 0x5 (42_frame_decoder.md R151). -/
  | decode
  /-- 0x6 (41_frame_encoder.md R130). -/
  | replyPack
  /-- 0x7 (42_frame_decoder.md R160). -/
  | replyUnpack
  /-- 0x8 (43_control.md R181), and so on to 0xF. -/
  | reserved8
  | reserved9
  | reservedA
  | reservedB
  | reservedC
  | reservedD
  | reservedE
  | reservedF
deriving DecidableEq, Repr

end Sys2Proof
end

