-- ==== Sys2Proof/Decode.lean ====
section
/-! DEFINITION. The command word (30_encoding.md R80 to R83): decoding, then encoding.

A CTRL write has one format and one length, a 32-bit word whose bits [3:0] are OP and whose bits [31:4] are ignored.
Decoding a word is total: "The match is total over the 16 values of OP" (R81), so no word is rejected. -/

namespace Sys2Proof

/-- OP = data[3:0] (30_encoding.md R80). -/
def opField (data : Word) : OpField := data.extractLsb' 0 4

/-- The operation of an OP value (30_encoding.md R81), bit 3 first as the table's patterns `xxxx…oooo` write it. Every
reserved value has an operation of its own: none falls through to a neighbour (R83). -/
def decodeOp (opv : OpField) : Instr :=
  match opv.getLsbD 3, opv.getLsbD 2, opv.getLsbD 1, opv.getLsbD 0 with
  | false, false, false, false => .nop
  | false, false, false, true  => .crcInit
  | false, false, true,  false => .crcByte
  | false, false, true,  true  => .crcBuf
  | false, true,  false, false => .encode
  | false, true,  false, true  => .decode
  | false, true,  true,  false => .replyPack
  | false, true,  true,  true  => .replyUnpack
  | true,  false, false, false => .reserved8
  | true,  false, false, true  => .reserved9
  | true,  false, true,  false => .reservedA
  | true,  false, true,  true  => .reservedB
  | true,  true,  false, false => .reservedC
  | true,  true,  false, true  => .reservedD
  | true,  true,  true,  false => .reservedE
  | true,  true,  true,  true  => .reservedF

/-- "A decoder reads OP = data[3:0] and nothing else" (30_encoding.md R80). -/
def decode (data : Word) : Instr := decodeOp (opField data)

/-- Why a bit string is no command word. -/
inductive DecodeError where
  /-- Longer than the one 32-bit format of 30_encoding.md R80. Raised by `decodeCommand` only: no host transaction
  carries such a value, so no step meets it. -/
  | longerThanOneWord
deriving DecidableEq, Repr

/-- A command given as a number of bits and their value: one 32-bit word whose bits above the given ones are 0; more than
32 bits are no command (30_encoding.md R80: "There is one format and one length"). -/
def decodeCommand (nbits w : Nat) : Except DecodeError Instr :=
  if nbits ≤ 32 then .ok (decode (BitVec.ofNat 32 (w % 2 ^ nbits))) else .error .longerThanOneWord

/-- The operation read from a row of the opcode table, given its bits (bit 0 the least significant bit of the word). -/
def decodeTableWord (nbits w : Nat) : Option Instr :=
  match decodeCommand nbits w with
  | .ok i => some i
  | .error _ => none

/-- The OP value of an operation (30_encoding.md R82). -/
def Instr.opcode : Instr → OpField
  | .nop => 0x0
  | .crcInit => 0x1
  | .crcByte => 0x2
  | .crcBuf => 0x3
  | .encode => 0x4
  | .decode => 0x5
  | .replyPack => 0x6
  | .replyUnpack => 0x7
  | .reserved8 => 0x8
  | .reserved9 => 0x9
  | .reservedA => 0xA
  | .reservedB => 0xB
  | .reservedC => 0xC
  | .reservedD => 0xD
  | .reservedE => 0xE
  | .reservedF => 0xF

/-- A command word of an operation with the given ignored bits [31:4] (30_encoding.md R80). -/
def encodeWith (ignored : BitVec 28) (i : Instr) : Word := ignored ++ i.opcode

/-- The command word of an operation as the host notation writes it, the ignored bits 0 (30_encoding.md R91: `op NAME` is
`RegWrite(0x000, OPCODE(NAME))`). -/
def encode (i : Instr) : Word := encodeWith 0 i

end Sys2Proof
end

