-- ==== Sys2Proof/Config.lean ====
section
/-! DEFINITION. What an implementation fixes (00_scope.md R11, 92_eei_decisions.md "Open parameters") and the free values
the spec leaves open (70_reset_and_hazards.md R231). The protocol constants of R10 are in Machine/Constants.lean. -/

namespace Sys2Proof

/-- IBUF_BYTES: 512 in this spec, a parameter in [261, 512] (00_scope.md R11, D5). DESIGN CHOICE (log entry 6; not safe for an
implementation with another size): the model fixes the spec's value. -/
def Config.ibufBytes : Nat := 512

/-- OBUF_BYTES: 512 in this spec, a parameter in [261, 512] (00_scope.md R11, D5). DESIGN CHOICE (log entry 6). -/
def Config.obufBytes : Nat := 512

/-- The byte at an index of IBUF after the reset with the given number: a FREE VALUE, "a draw under no law"
(70_reset_and_hazards.md R231, I1). Its first argument is `State.resets`, so that a later reset draws anew; its second is the
index. DESIGN CHOICE of form (log entry 4; safe: nothing can be proved of its value). -/
opaque Config.ibufAtReset : Nat → Nat → BitVec 8

/-- The byte at an index of OBUF after the reset with the given number: a FREE VALUE (70_reset_and_hazards.md R231, I1;
log entry 4; safe). -/
opaque Config.obufAtReset : Nat → Nat → BitVec 8

/-- FCODEC_BASE, the system address of host index 0: the platform's choice, with no default (20_memory.md R54, D2, I10; log
entry 9). -/
opaque Config.fcodecBase : Nat

/-- The system address of a host index, on a platform that maps words at byte addresses (92_eei_decisions.md D2). -/
def Config.systemAddress (idx : HostIndex) : Nat := Config.fcodecBase + 4 * idx.toNat

end Sys2Proof
end

