-- ==== Sys2Proof/Machine/Constants.lean ====
section
/-! DEFINITION. The protocol constants the source fixes (00_scope.md R10): "A model takes them as constants, not
parameters". -/

namespace Sys2Proof.Machine

/-- SENTINEL, the first byte of every frame (00_scope.md R10, 30_encoding.md R86). -/
def sentinel : Byte := 0x01

/-- CMD_POLL (00_scope.md R10). The block gives it no special treatment (30_encoding.md R89). -/
def cmdPoll : Byte := 0x01

/-- CMD_REPLY (00_scope.md R10). The block gives it no special treatment (30_encoding.md R89). -/
def cmdReply : Byte := 0x02

/-- ADDR_MIN (00_scope.md R10). -/
def addrMin : Nat := 1

/-- ADDR_MAX (00_scope.md R10). -/
def addrMax : Nat := 247

/-- HDR_OVERHEAD, the bytes of a frame that are not payload (00_scope.md R10, 30_encoding.md R85, R87). -/
def hdrOverhead : Nat := 6

/-- MAX_PAYLOAD (00_scope.md R10). -/
def maxPayload : Nat := 255

/-- MAX_FRAME = HDR_OVERHEAD + MAX_PAYLOAD (00_scope.md R10). -/
def maxFrame : Nat := hdrOverhead + maxPayload

/-- CRC_INIT, the initial register value (00_scope.md R10). -/
def crcInitValue : Half := 0xFFFF

/-- CRC_POLY_R, the reflected constant (00_scope.md R10). -/
def crcPolyR : Half := 0xA001

/-- REPLY_LEN, the length of a reply payload (00_scope.md R10, 30_encoding.md R90). -/
def replyLen : Nat := 8

/-- REPLY_CHANNELS (00_scope.md R10). -/
def replyChannels : Nat := 4

/-- CH_INVALID (00_scope.md R10). The block packs and unpacks it like any other value (10_state.md R34). -/
def chInvalid : Half := 0x7FFF

/-- A node address a frame may carry: 1 to 247, "0 and ≥248 reserved/invalid" (30_encoding.md R88). -/
abbrev validAddress (a : Byte) : Prop := addrMin ≤ a.toNat ∧ a.toNat ≤ addrMax

end Sys2Proof.Machine
end

