-- ==== Sys2Proof/Machine/State.lean ====
section
/-! DEFINITION. The state of the block: the registers of 10_state.md R20, the buffers of R35 and R36, and three fields of the
model's own (the pending host inputs, the value the last transaction returned, the count of resets). Plain data. -/

namespace Sys2Proof.Machine

/-- The bytes of a buffer that have been written since the last reset, by strictly rising index; an index that is not
listed holds the free byte of Config (20_memory.md R57, 70_reset_and_hazards.md R231; log entries 4, 5). -/
abbrev Memory := List Host.Cell

/-- What the outside world can do to the block: a host transaction (20_memory.md R50: "There are no byte enables, burst
transfers, partial-word writes or other transaction kinds") or the reset input (70_reset_and_hazards.md R230; log entry 7). -/
inductive Input where
  | regWrite (idx : HostIndex) (data : Word)
  | regRead (idx : HostIndex)
  | reset
deriving DecidableEq, Repr

/-- Why the machine stops: there is no reason. "No access to any index faults, stalls or signals an error"
(20_memory.md R56), an operation that fails ends normally with a code in STATUS (60_exceptions.md R204), and no
out-of-bounds case exists (R205). DEDUCED (log entry 8; safe or not: the type says only that no step answers a fault). -/
inductive Fault where
deriving DecidableEq, Repr

/-- Why an operation has no meaning in the model. -/
inductive Refusal where
  /-- Raised by an arm of exec for an operation the model gives no meaning yet; no arm does (safe: the run stops). -/
  | notModelled (mnemonic : String)
deriving DecidableEq, Repr

/-- The state the block holds between two host transactions. "There is no hidden state" (10_state.md R39). -/
structure State where
  /-- STATUS, the outcome of the last operation other than NOP (10_state.md R22). -/
  status : BitVec 12
  /-- CRC_ACC, the accumulator of checksum_gen (10_state.md R23). -/
  crcAcc : Half
  /-- CRC_DIN, the byte CRC_BYTE feeds (10_state.md R24). -/
  crcDin : Byte
  /-- F_ADDR, the address ENCODE takes (10_state.md R25). -/
  fAddr : Byte
  /-- F_CMD, the command ENCODE takes (10_state.md R26). -/
  fCmd : Byte
  /-- P_OFF, the start of the payload view in IBUF (10_state.md R27). -/
  pOff : BitVec 9
  /-- P_LEN, the length of the payload view (10_state.md R28). -/
  pLen : BitVec 9
  /-- IN_LEN, the length of the inbound frame (10_state.md R29). -/
  inLen : Half
  /-- OUT_CAP, the output capacity of ENCODE (10_state.md R30). -/
  outCap : Half
  /-- OUT_LEN, the bytes the last ENCODE wrote (10_state.md R31). -/
  outLen : Half
  /-- D_ADDR, the address of the last frame accepted (10_state.md R32). -/
  dAddr : Byte
  /-- D_CMD, the command of the last frame accepted (10_state.md R33). -/
  dCmd : Byte
  /-- CH0 to CH3, the channel readings (10_state.md R34). -/
  ch0 : Half
  ch1 : Half
  ch2 : Half
  ch3 : Half
  /-- IBUF, the input buffer (10_state.md R35). -/
  ibuf : Memory
  /-- OBUF, the output buffer (10_state.md R36). -/
  obuf : Memory
  /-- The model's own: how many resets came before this epoch, the argument of the free bytes (log entry 4). -/
  resets : Nat
  /-- The model's own: the inputs issued and not yet served, oldest first (20_memory.md R66; log entry 1). -/
  port : List Input
  /-- The model's own: what the last served input returned to the host, if it was a RegRead (20_memory.md R50; log
  entry 3). -/
  reply : Option Word
deriving DecidableEq, Repr

/-- The block right after reset (70_reset_and_hazards.md R230, R231): every register at the value of the table, both
buffers with no byte listed. The three fields of the model's own stand at their DESIGN CHOICE values (log entries 1, 3, 4). -/
def State.reset : State where
  status := 0x000
  crcAcc := 0xFFFF
  crcDin := 0x00
  fAddr := 0x00
  fCmd := 0x00
  pOff := 0x000
  pLen := 0x000
  inLen := 0x0000
  outCap := 0x0000
  outLen := 0x0000
  dAddr := 0x00
  dCmd := 0x00
  ch0 := 0x0000
  ch1 := 0x0000
  ch2 := 0x0000
  ch3 := 0x0000
  ibuf := []
  obuf := []
  resets := 0
  port := []
  reply := none

end Sys2Proof.Machine
end

