-- ==== Sys2Proof/Machine/Flags.lean ====
section
/-! DEFINITION. STATUS, the block's only flag state (10_state.md R22, R38), and the failure codes of 60_exceptions.md R200. -/

namespace Sys2Proof.Machine

/-- The failure codes an operation can report (60_exceptions.md R200). -/
inductive FailCode where
  | dShort | dSentinel | dLength | dChecksum | dAddress
  | eAddress | eCapacity | ePlen | range | rLength | illegalOp
deriving DecidableEq, Repr

/-- The ERR value of a failure (60_exceptions.md R200). 0x0 is success; 0xC to 0xF are never produced. -/
def FailCode.code : FailCode → BitVec 4
  | .dShort => 0x1
  | .dSentinel => 0x2
  | .dLength => 0x3
  | .dChecksum => 0x4
  | .dAddress => 0x5
  | .eAddress => 0x6
  | .eCapacity => 0x7
  | .ePlen => 0x8
  | .range => 0x9
  | .rLength => 0xA
  | .illegalOp => 0xB

/-- STATUS = LASTOP[11:8], ERR[7:4], reserved[3:1] = 0, OK[0] (10_state.md R22). -/
def statusWord (lastop err : BitVec 4) (ok : BitVec 1) : BitVec 12 := lastop ++ err ++ (0 : BitVec 3) ++ ok

/-- STATUS.OK (10_state.md R22). -/
def statusOk (st : BitVec 12) : BitVec 1 := st.extractLsb' 0 1

/-- STATUS[3:1], reserved, "read 0" (10_state.md R22). -/
def statusReserved (st : BitVec 12) : BitVec 3 := st.extractLsb' 1 3

/-- STATUS.ERR (10_state.md R22). -/
def statusErr (st : BitVec 12) : BitVec 4 := st.extractLsb' 4 4

/-- STATUS.LASTOP (10_state.md R22). -/
def statusLastop (st : BitVec 12) : BitVec 4 := st.extractLsb' 8 4

end Sys2Proof.Machine
end

