-- ==== Sys2Proof/Machine/Memory.lean ====
section
/-! DEFINITION. The byte list behind each buffer: reading and writing one byte, and writing a run of bytes
(20_memory.md R57: "The block's operations read and write the buffers byte by byte"). -/

namespace Sys2Proof.Machine

/-- The byte written at an index since the last reset, if one was. -/
def Memory.cell? : Memory → Nat → Option Byte
  | [], _ => none
  | (k, v) :: rest, a => if a = k then some v else Memory.cell? rest a

/-- Write one byte, keeping the indices strictly rising. -/
def Memory.store : Memory → Nat → Byte → Memory
  | [], a, b => [(a, b)]
  | (k, v) :: rest, a, b =>
    if a < k then (a, b) :: (k, v) :: rest
    else if a = k then (a, b) :: rest
    else (k, v) :: Memory.store rest a b

/-- Write bytes at consecutive indices, the first at the given one. -/
def Memory.storeBytes (m : Memory) (a : Nat) : List Byte → Memory
  | [] => m
  | b :: bs => Memory.storeBytes (Memory.store m a b) (a + 1) bs

/-- The canonical form of a buffer of the given size: strictly rising indices, all below the size. An unlisted index
holds no written byte, so no entry can equal what it holds, and two lists in this form that answer `cell?` alike are equal
(Laws/Memory.lean; log entry 5). -/
abbrev Memory.wf (size : Nat) (m : Memory) : Prop :=
  m.Pairwise (fun x y => x.1 < y.1) ∧ ∀ c ∈ m, c.1 < size

end Sys2Proof.Machine
end

