-- ==== Sys2Proof/Machine/Ops.lean ====
section
/-! DEFINITION. The named operations over the buffers and the registers, byte order, and the two ways an operation ends:
`finishOk` and `raiseFail` (00_scope.md R13). -/

namespace Sys2Proof.Machine

/-- v[7:0] of a 16-bit value. -/
def lowByte (v : Half) : Byte := v.extractLsb' 0 8

/-- v[15:8] of a 16-bit value. -/
def highByte (v : Half) : Byte := v.extractLsb' 8 8

/-- A 16-bit field as it is sent: low byte first (20_memory.md R60). -/
def halfBytes (v : Half) : List Byte := [lowByte v, highByte v]

/-- The 16-bit field whose bytes are given in wire order (20_memory.md R60; 42_frame_decoder.md R160: high byte, low byte). -/
def bytesHalf (lo hi : Byte) : Half := hi ++ lo

/-- The n bytes at consecutive indices of a buffer, the first at a: `buf[a .. a + n)` (00_scope.md R13). -/
def readBytes (buf : Nat → Byte) (a : Nat) : Nat → List Byte
  | 0 => []
  | n + 1 => buf a :: readBytes buf (a + 1) n

/-- `MemRead(buf, a, n)`, the little-endian n-byte value (00_scope.md R13). -/
def memRead (buf : Nat → Byte) (a : Nat) : Nat → Nat
  | 0 => 0
  | n + 1 => (buf a).toNat + 256 * memRead buf (a + 1) n

/-- `MemWrite(buf, a, n, v)`: buf[a + k] <- v[8k+7:8k] (00_scope.md R13). -/
def memWrite (m : Memory) (a : Nat) : Nat → Nat → Memory
  | 0, _ => m
  | n + 1, v => memWrite (Memory.store m a (BitVec.ofNat 8 v)) (a + 1) n (v / 256)

/-- `IBUF[i]`: the byte written there since reset, else the free byte of this epoch (10_state.md R35,
70_reset_and_hazards.md R231). No operation asks for an index at or above 512 (60_exceptions.md R205; log entry 12). -/
def State.ibufByte (s : State) (i : Nat) : Byte := (Memory.cell? s.ibuf i).getD (Config.ibufAtReset s.resets i)

/-- `OBUF[i]` (10_state.md R36, 70_reset_and_hazards.md R231). -/
def State.obufByte (s : State) (i : Nat) : Byte := (Memory.cell? s.obuf i).getD (Config.obufAtReset s.resets i)

/-- Write bytes to IBUF at consecutive indices. -/
def State.storeIbuf (s : State) (a : Nat) (bs : List Byte) : State := { s with ibuf := Memory.storeBytes s.ibuf a bs }

/-- Write bytes to OBUF at consecutive indices. Only ENCODE does (10_state.md R36). -/
def State.storeObuf (s : State) (a : Nat) (bs : List Byte) : State := { s with obuf := Memory.storeBytes s.obuf a bs }

/-- STATUS <- v. -/
def State.setStatus (s : State) (v : BitVec 12) : State := { s with status := v }

/-- CRC_ACC <- v. -/
def State.setCrcAcc (s : State) (v : Half) : State := { s with crcAcc := v }

/-- P_OFF <- off, P_LEN <- len, each truncated to its 9 bits (00_scope.md R13). -/
def State.setView (s : State) (off len : Nat) : State :=
  { s with pOff := BitVec.ofNat 9 off, pLen := BitVec.ofNat 9 len }

/-- OUT_LEN <- n, truncated to its 16 bits (00_scope.md R13). -/
def State.setOutLen (s : State) (n : Nat) : State := { s with outLen := BitVec.ofNat 16 n }

/-- D_ADDR <- a, D_CMD <- c. -/
def State.setDecoded (s : State) (a c : Byte) : State := { s with dAddr := a, dCmd := c }

/-- CH0 to CH3 <- v0 to v3. -/
def State.setChannels (s : State) (v0 v1 v2 v3 : Half) : State := { s with ch0 := v0, ch1 := v1, ch2 := v2, ch3 := v3 }

/-- `finish_ok()`: STATUS <- LASTOP = op, ERR = 0, OK = 1 (00_scope.md R13). -/
def State.finishOk (s : State) (op : OpField) : State := s.setStatus (statusWord op 0 1)

/-- `raise Fail(code)`: STATUS <- LASTOP = op, ERR = code, OK = 0, "and nothing else" (00_scope.md R13). This is all there
is of taking an exception on this hardware: "There is no saved program counter, no mode change, no mask, no stack and no
vector" (60_exceptions.md R204), and "There is no return-from-failure action and no nesting" (R206). -/
def State.raiseFail (s : State) (op : OpField) (c : FailCode) : State := s.setStatus (statusWord op c.code 0)

/-- `fail_encode(code)`: OUT_LEN <- 0, then raise Fail(code) (41_frame_encoder.md R121). -/
def State.failEncode (s : State) (op : OpField) (c : FailCode) : State := (s.setOutLen 0).raiseFail op c

end Sys2Proof.Machine
end

