-- ==== Sys2Proof/Machine/Frame.lean ====
section
/-! DEFINITION. The checksum function (40_checksum.md R100) and the two byte layouts: the frame (30_encoding.md R86) and the
reply payload (R90). -/

namespace Sys2Proof.Machine

/-- One turn of the loop of `crc_step`: shift right by one, and XOR the constant if the bit shifted out was 1
(40_checksum.md R100). -/
def crcShift (r : Half) : Half := if r.getLsbD 0 then (r >>> 1) ^^^ crcPolyR else r >>> 1

/-- The loop of `crc_step`, n turns (40_checksum.md R100). -/
def crcShifts : Nat → Half → Half
  | 0, r => r
  | n + 1, r => crcShifts n (crcShift r)

/-- `crc_step(r, b)`: b enters the low byte, then "repeat 8 times" (40_checksum.md R100). -/
def crcStep (r : Half) (b : Byte) : Half := crcShifts 8 (r ^^^ b.setWidth 16)

/-- `crc_step` over a byte sequence, first to last, from a given register value (40_checksum.md R101). -/
def crcFrom (r : Half) (bs : List Byte) : Half := bs.foldl crcStep r

/-- `crc16(seq)`: from 0xFFFF; no final XOR, no reflection of the result (40_checksum.md R100). -/
def crc16 (bs : List Byte) : Half := crcFrom crcInitValue bs

/-- The checksum of a frame, over `[a, c, N] ++ p`: "everything after the start sentinel, before the checksum itself"
(40_checksum.md R106). -/
def frameCrc (a c : Byte) (p : List Byte) : Half := crc16 ([a, c, BitVec.ofNat 8 p.length] ++ p)

/-- `frame(a, c, p)` (30_encoding.md R86). -/
def frameBytes (a c : Byte) (p : List Byte) : List Byte :=
  [sentinel, a, c, BitVec.ofNat 8 p.length] ++ p ++ halfBytes (frameCrc a c p)

/-- `reply(v0, v1, v2, v3)`: channel order 0 to 3, each low byte first (30_encoding.md R90). -/
def replyBytes (v0 v1 v2 v3 : Half) : List Byte := halfBytes v0 ++ halfBytes v1 ++ halfBytes v2 ++ halfBytes v3

end Sys2Proof.Machine
end

