-- ==== Sys2Proof/Machine/Operands.lean ====
section
/-! DEFINITION. The operands of the operations: the payload view, the channels, and the registers as the host names them
(10_state.md R20, 30_encoding.md R84). -/

namespace Sys2Proof.Machine

/-- The registers of 10_state.md R20, in index order. -/
inductive Reg where
  | ctrl | status | crcAcc | crcDin | fAddr | fCmd | pOff | pLen | inLen | outCap | outLen | dAddr | dCmd
  | ch0 | ch1 | ch2 | ch3
deriving DecidableEq, Repr

/-- How the host may access a register (10_state.md R20). -/
inductive Access where
  /-- host-readable and host-writable -/
  | rw
  /-- host-readable, host writes ignored -/
  | ro
  /-- host writes act, host reads return 0 -/
  | wo
deriving DecidableEq, Repr

/-- The host-port word index of a register (10_state.md R20). -/
def Reg.index : Reg → HostIndex
  | .ctrl => 0x000
  | .status => 0x001
  | .crcAcc => 0x002
  | .crcDin => 0x003
  | .fAddr => 0x004
  | .fCmd => 0x005
  | .pOff => 0x006
  | .pLen => 0x007
  | .inLen => 0x008
  | .outCap => 0x009
  | .outLen => 0x00A
  | .dAddr => 0x00B
  | .dCmd => 0x00C
  | .ch0 => 0x00D
  | .ch1 => 0x00E
  | .ch2 => 0x00F
  | .ch3 => 0x010

/-- The number of implemented bits of a register (10_state.md R20). -/
def Reg.width : Reg → Nat
  | .ctrl => 4
  | .status => 12
  | .crcDin | .fAddr | .fCmd | .dAddr | .dCmd => 8
  | .pOff | .pLen => 9
  | .crcAcc | .inLen | .outCap | .outLen | .ch0 | .ch1 | .ch2 | .ch3 => 16

/-- The access of a register (10_state.md R20). -/
def Reg.access : Reg → Access
  | .ctrl => .wo
  | .status | .crcAcc | .outLen | .dAddr | .dCmd => .ro
  | .crcDin | .fAddr | .fCmd | .pOff | .pLen | .inLen | .outCap | .ch0 | .ch1 | .ch2 | .ch3 => .rw

/-- "The block has exactly these registers" (10_state.md R20). -/
def Reg.all : List Reg :=
  [.ctrl, .status, .crcAcc, .crcDin, .fAddr, .fCmd, .pOff, .pLen, .inLen, .outCap, .outLen, .dAddr, .dCmd,
    .ch0, .ch1, .ch2, .ch3]

/-- The register at a host index, if one is there (20_memory.md R54). -/
def Reg.ofIndex? (idx : HostIndex) : Option Reg := Reg.all.find? (fun r => r.index == idx)

/-- What a host read of a register returns: the stored value zero-extended to 32 bits, a channel too (20_memory.md R55);
CTRL has no storage and reads 0 (10_state.md R21). -/
def State.readReg (s : State) : Reg → Word
  | .ctrl => 0
  | .status => s.status.setWidth 32
  | .crcAcc => s.crcAcc.setWidth 32
  | .crcDin => s.crcDin.setWidth 32
  | .fAddr => s.fAddr.setWidth 32
  | .fCmd => s.fCmd.setWidth 32
  | .pOff => s.pOff.setWidth 32
  | .pLen => s.pLen.setWidth 32
  | .inLen => s.inLen.setWidth 32
  | .outCap => s.outCap.setWidth 32
  | .outLen => s.outLen.setWidth 32
  | .dAddr => s.dAddr.setWidth 32
  | .dCmd => s.dCmd.setWidth 32
  | .ch0 => s.ch0.setWidth 32
  | .ch1 => s.ch1.setWidth 32
  | .ch2 => s.ch2.setWidth 32
  | .ch3 => s.ch3.setWidth 32

/-- What a host write of a register other than CTRL stores: bits [w-1:0] of a register that the host may write, nothing of
one it may only read (20_memory.md R51, R55, R56). CTRL has no storage (10_state.md R21): its write is `regWrite`'s. -/
def State.writeReg (s : State) (r : Reg) (data : Word) : State :=
  match r with
  | .crcDin => { s with crcDin := data.setWidth 8 }
  | .fAddr => { s with fAddr := data.setWidth 8 }
  | .fCmd => { s with fCmd := data.setWidth 8 }
  | .pOff => { s with pOff := data.setWidth 9 }
  | .pLen => { s with pLen := data.setWidth 9 }
  | .inLen => { s with inLen := data.setWidth 16 }
  | .outCap => { s with outCap := data.setWidth 16 }
  | .ch0 => { s with ch0 := data.setWidth 16 }
  | .ch1 => { s with ch1 := data.setWidth 16 }
  | .ch2 => { s with ch2 := data.setWidth 16 }
  | .ch3 => { s with ch3 := data.setWidth 16 }
  | .ctrl | .status | .crcAcc | .outLen | .dAddr | .dCmd => s

/-- P_OFF as an index of IBUF (10_state.md R27). -/
def State.viewStart (s : State) : Nat := s.pOff.toNat

/-- P_LEN as a number of bytes (10_state.md R28). -/
def State.viewLen (s : State) : Nat := s.pLen.toNat

/-- The bytes the payload view names, `IBUF[P_OFF .. P_OFF + P_LEN)`, read where they stand (20_memory.md R69). -/
def State.viewBytes (s : State) : List Byte := readBytes s.ibufByte s.viewStart s.viewLen

/-- The 16-bit field of IBUF at an index, low byte first (20_memory.md R60). -/
def State.ibufHalf (s : State) (i : Nat) : Half := bytesHalf (s.ibufByte i) (s.ibufByte (i + 1))

/-- `s16(p)`: the int16 whose two's-complement pattern is p (00_scope.md R12). -/
def s16 (p : Half) : Int := p.toInt

/-- `u16(x)`: the 16-bit two's-complement pattern of an int16 (00_scope.md R12). -/
def u16 (x : Int) : Half := BitVec.ofInt 16 x

end Sys2Proof.Machine
end

