-- ==== Sys2Proof/Machine/Checksum.lean ====
section
/-! DEFINITION. checksum_gen: CRC_INIT, CRC_BYTE, CRC_BUF (40_checksum.md R102 to R104). -/

namespace Sys2Proof.Machine

/-- CRC_INIT (40_checksum.md R102). -/
def execCrcInit (s : State) : Host.Outcome State Fault Refusal :=
  .next ((s.setCrcAcc crcInitValue).finishOk (Instr.opcode .crcInit))

/-- CRC_BYTE (40_checksum.md R103): it goes on from whatever CRC_ACC holds, and CRC_DIN stays. -/
def execCrcByte (s : State) : Host.Outcome State Fault Refusal :=
  .next ((s.setCrcAcc (crcStep s.crcAcc s.crcDin)).finishOk (Instr.opcode .crcByte))

/-- The one check of CRC_BUF (40_checksum.md R104). -/
def crcBufCheck (s : State) : Option FailCode :=
  if s.viewStart + s.viewLen > Config.ibufBytes then some .range else none

/-- CRC_BUF (40_checksum.md R104). -/
def execCrcBuf (s : State) : Host.Outcome State Fault Refusal :=
  match crcBufCheck s with
  | some c => .next (s.raiseFail (Instr.opcode .crcBuf) c)
  | none => .next ((s.setCrcAcc (crc16 s.viewBytes)).finishOk (Instr.opcode .crcBuf))

end Sys2Proof.Machine
end

