-- ==== Sys2Proof/Machine/Control.lean ====
section
/-! DEFINITION. The control operations: NOP and the reserved codes (43_control.md R180, R181). -/

namespace Sys2Proof.Machine

/-- NOP (43_control.md R180): "STATUS: not written"; nothing changes. -/
def execNop (s : State) : Host.Outcome State Fault Refusal := .next s

/-- What every reserved code does: raise Fail(ILLEGAL_OP), with LASTOP the code itself (43_control.md R181). -/
def illegalOperation (i : Instr) (s : State) : State := s.raiseFail i.opcode .illegalOp

/-- RESERVED_8 (43_control.md R181). -/
def execReserved8 (s : State) : Host.Outcome State Fault Refusal := .next (illegalOperation .reserved8 s)

/-- RESERVED_9 (43_control.md R181). -/
def execReserved9 (s : State) : Host.Outcome State Fault Refusal := .next (illegalOperation .reserved9 s)

/-- RESERVED_A (43_control.md R181). -/
def execReservedA (s : State) : Host.Outcome State Fault Refusal := .next (illegalOperation .reservedA s)

/-- RESERVED_B (43_control.md R181). -/
def execReservedB (s : State) : Host.Outcome State Fault Refusal := .next (illegalOperation .reservedB s)

/-- RESERVED_C (43_control.md R181). -/
def execReservedC (s : State) : Host.Outcome State Fault Refusal := .next (illegalOperation .reservedC s)

/-- RESERVED_D (43_control.md R181). -/
def execReservedD (s : State) : Host.Outcome State Fault Refusal := .next (illegalOperation .reservedD s)

/-- RESERVED_E (43_control.md R181). -/
def execReservedE (s : State) : Host.Outcome State Fault Refusal := .next (illegalOperation .reservedE s)

/-- RESERVED_F (43_control.md R181). -/
def execReservedF (s : State) : Host.Outcome State Fault Refusal := .next (illegalOperation .reservedF s)

end Sys2Proof.Machine
end

