-- ==== Sys2Proof/Machine/FrameDecoder.lean ====
section
/-! DEFINITION. frame_decoder: DECODE and REPLY_UNPACK (42_frame_decoder.md R151, R160). -/

namespace Sys2Proof.Machine

/-- The declared payload length of the inbound frame, `N <- IBUF[3]` (42_frame_decoder.md R151). -/
def State.declaredLen (s : State) : Nat := (s.ibufByte 3).toNat

/-- `crc16(IBUF[1 .. 4 + N))`, the recomputed checksum of a frame with N payload bytes (42_frame_decoder.md R151). -/
def State.inboundCrc (s : State) (n : Nat) : Half := crc16 (readBytes s.ibufByte 1 (3 + n))

/-- The five checks of DECODE; "the first violated one decides ERR and no later check is made" (42_frame_decoder.md R151). -/
def decodeCheck (s : State) : Option FailCode :=
  if s.inLen.toNat < hdrOverhead then some .dShort
  else if s.ibufByte 0 ≠ sentinel then some .dSentinel
  else if s.declaredLen + hdrOverhead ≠ s.inLen.toNat then some .dLength
  else if s.inboundCrc s.declaredLen ≠ s.ibufHalf (4 + s.declaredLen) then some .dChecksum
  else if ¬ validAddress (s.ibufByte 1) then some .dAddress
  else none

/-- DECODE (42_frame_decoder.md R151): on failure D_ADDR, D_CMD, P_OFF and P_LEN stay. -/
def execDecode (s : State) : Host.Outcome State Fault Refusal :=
  match decodeCheck s with
  | some c => .next (s.raiseFail (Instr.opcode .decode) c)
  | none =>
    .next (((s.setDecoded (s.ibufByte 1) (s.ibufByte 2)).setView 4 s.declaredLen).finishOk (Instr.opcode .decode))

/-- The two checks of REPLY_UNPACK, in order (42_frame_decoder.md R160, 60_exceptions.md R202). -/
def replyUnpackCheck (s : State) : Option FailCode :=
  if s.viewLen ≠ replyLen then some .rLength
  else if s.viewStart + replyLen > Config.ibufBytes then some .range
  else none

/-- REPLY_UNPACK (42_frame_decoder.md R160). -/
def execReplyUnpack (s : State) : Host.Outcome State Fault Refusal :=
  match replyUnpackCheck s with
  | some c => .next (s.raiseFail (Instr.opcode .replyUnpack) c)
  | none =>
    .next ((s.setChannels (s.ibufHalf s.viewStart) (s.ibufHalf (s.viewStart + 2)) (s.ibufHalf (s.viewStart + 4))
      (s.ibufHalf (s.viewStart + 6))).finishOk (Instr.opcode .replyUnpack))

end Sys2Proof.Machine
end

