-- ==== Sys2Proof/Machine/FrameEncoder.lean ====
section
/-! DEFINITION. frame_encoder: ENCODE and REPLY_PACK (41_frame_encoder.md R121, R130). -/

namespace Sys2Proof.Machine

/-- The four checks of ENCODE, "in this order, first one wins" (41_frame_encoder.md R121, 60_exceptions.md R202). -/
def encodeCheck (s : State) : Option FailCode :=
  if ¬ validAddress s.fAddr then some .eAddress
  else if s.viewLen > maxPayload then some .ePlen
  else if s.viewStart + s.viewLen > Config.ibufBytes then some .range
  else if s.outCap.toNat < hdrOverhead + s.viewLen then some .eCapacity
  else none

/-- ENCODE (41_frame_encoder.md R121): the frame goes to OBUF from index 0, its length to OUT_LEN. -/
def execEncode (s : State) : Host.Outcome State Fault Refusal :=
  match encodeCheck s with
  | some c => .next (s.failEncode (Instr.opcode .encode) c)
  | none =>
    .next (((s.storeObuf 0 (frameBytes s.fAddr s.fCmd s.viewBytes)).setOutLen (hdrOverhead + s.viewLen)).finishOk
      (Instr.opcode .encode))

/-- REPLY_PACK (41_frame_encoder.md R130): it cannot fail. -/
def execReplyPack (s : State) : Host.Outcome State Fault Refusal :=
  .next (((s.storeIbuf 0 (replyBytes s.ch0 s.ch1 s.ch2 s.ch3)).setView 0 replyLen).finishOk (Instr.opcode .replyPack))

end Sys2Proof.Machine
end

