-- ==== Sys2Proof/Machine/HostPort.lean ====
section
/-! DEFINITION. The host port: RegWrite, RegRead (20_memory.md R51, R52), the reset input (70_reset_and_hazards.md R230), and what
serving one input does. -/

namespace Sys2Proof.Machine

/-- Index 0x200, the first word of the IBUF window (20_memory.md R54). -/
def ibufBase : Nat := 0x200

/-- Index 0x400, the first word of the OBUF window (20_memory.md R54). -/
def obufBase : Nat := 0x400

/-- The IBUF index that a host index names, if it lies in the IBUF window (20_memory.md R54). -/
def ibufIndex? (idx : HostIndex) : Option Nat :=
  if ibufBase ≤ idx.toNat ∧ idx.toNat < ibufBase + Config.ibufBytes then some (idx.toNat - ibufBase) else none

/-- The OBUF index that a host index names, if it lies in the OBUF window (20_memory.md R54). -/
def obufIndex? (idx : HostIndex) : Option Nat :=
  if obufBase ≤ idx.toNat ∧ idx.toNat < obufBase + Config.obufBytes then some (idx.toNat - obufBase) else none

/-- `RegRead(idx)`: a register, a byte of a window in bits [7:0], or 0 at a reserved index (20_memory.md R52). -/
def regRead (s : State) (idx : HostIndex) : Word :=
  match Reg.ofIndex? idx with
  | some r => s.readReg r
  | none =>
    match ibufIndex? idx with
    | some i => (s.ibufByte i).setWidth 32
    | none =>
      match obufIndex? idx with
      | some i => (s.obufByte i).setWidth 32
      | none => 0

/-- `run_operation(opv)` (30_encoding.md R81). -/
def runOperation (opv : OpField) (s : State) : Host.Outcome State Fault Refusal := exec (decodeOp opv) s

/-- `RegWrite(idx, data)`: CTRL runs an operation, a register stores its bits, the IBUF window stores data[7:0], everything
else is ignored (20_memory.md R51, R56). -/
def regWrite (s : State) (idx : HostIndex) (data : Word) : Host.Outcome State Fault Refusal :=
  match Reg.ofIndex? idx with
  | some .ctrl => runOperation (opField data) s
  | some r => .next (s.writeReg r data)
  | none =>
    match ibufIndex? idx with
    | some i => .next (s.storeIbuf i [data.setWidth 8])
    | none => .next s

/-- The reset input: every register at its reset value, both buffers unspecified again (a fresh draw, log entry 4); what the
host has issued and the block has not served stays issued (70_reset_and_hazards.md R230, R231; log entry 7). -/
def hostReset (s : State) : State := { State.reset with resets := s.resets + 1, port := s.port }

/-- What one host input does to the block (20_memory.md R51, R52; 70_reset_and_hazards.md R230). "A read changes no state" (R52). -/
def serve (s : State) : Input → Host.Outcome State Fault Refusal
  | .regWrite idx data => regWrite s idx data
  | .regRead _ => .next s
  | .reset => .next (hostReset s)

/-- What one host input returns: RegRead a 32-bit value, RegWrite nothing (20_memory.md R50), reset nothing. -/
def answer (s : State) : Input → Option Word
  | .regRead idx => some (regRead s idx)
  | .regWrite _ _ => none
  | .reset => none

/-- The end of serving an input: the inputs left stay pending, and the host has its answer (20_memory.md R53). -/
def retire (rest : List Input) (ans : Option Word) (s : State) : State := { s with port := rest, reply := ans }

end Sys2Proof.Machine
end

