-- ==== Sys2Proof/Machine/Step.lean ====
section
/-! DEFINITION. One step: the block serves the oldest pending host input, whole (20_memory.md R50: "A model's step relation has
one step per transaction"; R53, R66). -/

namespace Sys2Proof.Machine

/-- Serve the oldest pending input. With none pending nothing happens: "the block … takes a step only in response to a host
transaction" (00_scope.md R9; log entry 2). -/
def step (s : State) : Host.Outcome State Fault Refusal :=
  match s.port with
  | [] => .next s
  | t :: rest =>
    match serve s t with
    | .next s' => .next (retire rest (answer s t) s')
    | .fault f => .fault f
    | .refused r => .refused r

/-- The host issues `W 000 <w>` before all it has issued so far: the very next step runs that command word
(30_encoding.md R91; log entry 1). The nbits given are the low ones of the 32; the others are 0. -/
def State.withFetchWord (s : State) (nbits w : Nat) : State :=
  { s with port := .regWrite Reg.ctrl.index (BitVec.ofNat 32 (w % 2 ^ nbits)) :: s.port }

end Sys2Proof.Machine
end

