-- ==== Sys2Proof/Machine/HostProgram.lean ====
section
/-! DEFINITION. The notation the spec writes host programs in (30_encoding.md R91, R92): statements, their transactions, and the
expansions of the pseudo-statements. -/

namespace Sys2Proof.Machine

/-- A statement of the host notation (30_encoding.md R91). -/
inductive Stmt where
  /-- `wr REG, v` -/
  | wr (r : Reg) (v : Word)
  /-- `rd REG` -/
  | rd (r : Reg)
  /-- `wb IBUF[i], b` -/
  | wbIbuf (i : Nat) (b : Byte)
  /-- `rb IBUF[i]` -/
  | rbIbuf (i : Nat)
  /-- `rb OBUF[i]` -/
  | rbObuf (i : Nat)
  /-- `op NAME` -/
  | op (i : Instr)
deriving DecidableEq, Repr

/-- The transaction of a statement (30_encoding.md R91). -/
def Stmt.input : Stmt → Input
  | .wr r v => .regWrite r.index v
  | .rd r => .regRead r.index
  | .wbIbuf i b => .regWrite (BitVec.ofNat 12 (ibufBase + i)) (b.setWidth 32)
  | .rbIbuf i => .regRead (BitVec.ofNat 12 (ibufBase + i))
  | .rbObuf i => .regRead (BitVec.ofNat 12 (obufBase + i))
  | .op i => .regWrite Reg.ctrl.index (encode i)

/-- `wb IBUF[a], b0`, `wb IBUF[a+1], b1`, … -/
def writeIbufFrom (a : Nat) : List Byte → List Stmt
  | [] => []
  | b :: bs => .wbIbuf a b :: writeIbufFrom (a + 1) bs

/-- `loadframe b0 … b(k-1)` (30_encoding.md R92). -/
def loadframe (bs : List Byte) : List Stmt := writeIbufFrom 0 bs ++ [.wr .inLen (BitVec.ofNat 32 bs.length)]

/-- `loadpl o: b0 … b(k-1)` (30_encoding.md R92). -/
def loadpl (o : Nat) (bs : List Byte) : List Stmt :=
  writeIbufFrom o bs ++ [.wr .pOff (BitVec.ofNat 32 o), .wr .pLen (BitVec.ofNat 32 bs.length)]

/-- `crcfeed b` (30_encoding.md R92). -/
def crcfeed (b : Byte) : List Stmt := [.wr .crcDin (b.setWidth 32), .op .crcByte]

/-- The byte-copying part of `loopback`: `rb OBUF[i]` then `wb IBUF[i], <value read>`, for k indices from i on. -/
def copyObufFrom (s : State) (i : Nat) : Nat → List Stmt
  | 0 => []
  | k + 1 => .rbObuf i :: .wbIbuf i (s.obufByte i) :: copyObufFrom s (i + 1) k

/-- `loopback`, issued in state s (30_encoding.md R92): OUT_LEN is read first, each OBUF byte is read and written to IBUF, then
IN_LEN is written. The values the host reads are those of s: none of the transactions writes OBUF or OUT_LEN (log entry 13). -/
def loopback (s : State) : List Stmt :=
  .rd .outLen :: copyObufFrom s 0 s.outLen.toNat ++ [.wr .inLen (s.outLen.setWidth 32)]

end Sys2Proof.Machine
end

