-- ==== Sys2Proof/WellFormed.lean ====
section
/-! DEFINITION. What a well-formed operation and a well-formed host statement are. -/

namespace Sys2Proof

/-- Every operation is well formed: it has no operand, and every OP value has a meaning (30_encoding.md R81, R84). -/
def Instr.wellFormed (_ : Instr) : Bool := true

/-- A host statement is well formed when the buffer byte it names exists: `wb IBUF[i]`, `rb IBUF[i]`, `rb OBUF[i]` ask for an index
of the buffer, so that the statement's transaction lies in the buffer's window (30_encoding.md R91, 20_memory.md R54). A write
of a read-only register is a well-formed statement that is ignored (R56). -/
def Machine.Stmt.wellFormed : Machine.Stmt → Bool
  | .wbIbuf i _ => decide (i < Config.ibufBytes)
  | .rbIbuf i => decide (i < Config.ibufBytes)
  | .rbObuf i => decide (i < Config.obufBytes)
  | .wr _ _ => true
  | .rd _ => true
  | .op i => i.wellFormed

end Sys2Proof
end

