-- ==== Sys2Proof/Safety.lean ====
section
/-! DEFINITION. The terms claims are stated in: what an operation leaves unchanged, which outcomes an operation can report, and
the invariants of the block. -/

namespace Sys2Proof.Machine

/-- Every register outside the list reads as before. -/
def RegsSame (changed : List Reg) (s t : State) : Prop := ∀ r, r ∉ changed → t.readReg r = s.readReg r

/-- Every byte of IBUF reads as before. -/
def IbufSame (s t : State) : Prop := ∀ a, t.ibufByte a = s.ibufByte a

/-- Every byte of OBUF reads as before. -/
def ObufSame (s t : State) : Prop := ∀ a, t.obufByte a = s.obufByte a

/-- The model's own fields (pending inputs, last answer, count of resets) are as before. -/
def ModelSame (s t : State) : Prop := t.port = s.port ∧ t.reply = s.reply ∧ t.resets = s.resets

/-- The frame of an action that stores to neither buffer: registers outside the list, both buffers and the model's own fields
are as before. -/
def OnlyRegsChange (changed : List Reg) (s t : State) : Prop :=
  RegsSame changed s t ∧ IbufSame s t ∧ ObufSame s t ∧ ModelSame s t

/-- The operation has this code: a CTRL write of any word with the code in bits [3:0] runs it (30_encoding.md R80 to R82). -/
def HasCode (code : Nat) (i : Instr) : Prop :=
  ∀ (s : State) (data : Word), data.toNat % 16 = code → regWrite s Reg.ctrl.index data = exec i s

/-- The operations, in opcode order (30_encoding.md R81). -/
def allInstrs : List Instr :=
  [.nop, .crcInit, .crcByte, .crcBuf, .encode, .decode, .replyPack, .replyUnpack, .reserved8, .reserved9, .reservedA,
    .reservedB, .reservedC, .reservedD, .reservedE, .reservedF]

/-- The reserved operations (43_control.md R181). -/
def reservedInstrs : List Instr :=
  [.reserved8, .reserved9, .reservedA, .reservedB, .reservedC, .reservedD, .reservedE, .reservedF]

/-- The codes an operation can fail with (60_exceptions.md R202). -/
def failuresOf : Instr → List FailCode
  | .decode => [.dShort, .dSentinel, .dLength, .dChecksum, .dAddress]
  | .encode => [.eAddress, .ePlen, .range, .eCapacity]
  | .replyUnpack => [.rLength, .range]
  | .crcBuf => [.range]
  | .nop | .crcInit | .crcByte | .replyPack => []
  | .reserved8 | .reserved9 | .reservedA | .reservedB | .reservedC | .reservedD | .reservedE | .reservedF => [.illegalOp]

/-- The operations that can end with OK = 1: all but NOP, which reports nothing, and the reserved ones (10_state.md R22,
43_control.md R180, R181). -/
def canSucceed : Instr → Bool
  | .crcInit | .crcByte | .crcBuf | .encode | .decode | .replyPack | .replyUnpack => true
  | .nop | .reserved8 | .reserved9 | .reservedA | .reservedB | .reservedC | .reservedD | .reservedE | .reservedF => false

/-- The STATUS values an operation can leave (10_state.md R22, 60_exceptions.md R200, R202). -/
def outcomesOf (i : Instr) : List (BitVec 12) :=
  (if canSucceed i then [statusWord i.opcode 0 1] else []) ++ (failuresOf i).map (fun c => statusWord i.opcode c.code 0)

/-- The STATUS values the block can show: the reset value, or an outcome of some operation. -/
def legalStatus (st : BitVec 12) : Prop := st = 0 ∨ ∃ i, st ∈ outcomesOf i

/-- The registers an operation reads as operands (30_encoding.md R82). -/
def operandRegs : Instr → List Reg
  | .crcByte => [.crcAcc, .crcDin]
  | .crcBuf => [.pOff, .pLen]
  | .encode => [.fAddr, .fCmd, .pOff, .pLen, .outCap]
  | .decode => [.inLen]
  | .replyPack => [.ch0, .ch1, .ch2, .ch3]
  | .replyUnpack => [.pOff, .pLen]
  | .nop | .crcInit => []
  | .reserved8 | .reserved9 | .reservedA | .reservedB | .reservedC | .reservedD | .reservedE | .reservedF => []

/-- The operations that read bytes of IBUF: those whose row of the opcode map lists IBUF among the operands (30_encoding.md
R82). -/
def readsIbuf : List Instr := [.crcBuf, .encode, .decode, .replyUnpack]

/-- The registers an operation writes when it succeeds: the S and A entries of the write matrix (10_state.md R40). -/
def regsWrittenOnSuccess : Instr → List Reg
  | .nop => []
  | .crcInit | .crcByte | .crcBuf => [.status, .crcAcc]
  | .encode => [.status, .outLen]
  | .decode => [.status, .pOff, .pLen, .dAddr, .dCmd]
  | .replyPack => [.status, .pOff, .pLen]
  | .replyUnpack => [.status, .ch0, .ch1, .ch2, .ch3]
  | .reserved8 | .reserved9 | .reservedA | .reservedB | .reservedC | .reservedD | .reservedE | .reservedF => [.status]

/-- The registers an operation writes when it fails: the A entries of the write matrix (10_state.md R40). -/
def regsWrittenOnFailure : Instr → List Reg
  | .nop => []
  | .encode => [.status, .outLen]
  | .crcInit | .crcByte | .crcBuf | .decode | .replyPack | .replyUnpack => [.status]
  | .reserved8 | .reserved9 | .reservedA | .reservedB | .reservedC | .reservedD | .reservedE | .reservedF => [.status]

/-- The structural invariant of the block. STATUS is one of the values an operation can leave (10_state.md R22, 60_exceptions.md
R200); D_ADDR is a valid address while STATUS shows a successful DECODE, and at any time a valid address or, with D_CMD, still 0
(10_state.md R32; that a valid D_ADDR stays valid is a statement of its own); OUT_LEN is the length of a frame or 0 (R31), and
agrees with STATUS.OK after an ENCODE (90_conflicts.md C9). That each buffer is in canonical form is the model's own
representation (log entry 5); that it lists no index of 512 or more is 60_exceptions.md R205. -/
structure State.Inv (s : State) : Prop where
  ibuf_wf : Memory.wf 512 s.ibuf
  obuf_wf : Memory.wf 512 s.obuf
  status_legal : legalStatus s.status
  decoded_address : (s.dAddr = 0 ∧ s.dCmd = 0) ∨ (1 ≤ s.dAddr.toNat ∧ s.dAddr.toNat ≤ 247)
  decode_signal : s.status = 0x501#12 → 1 ≤ s.dAddr.toNat ∧ s.dAddr.toNat ≤ 247
  outLen_range : s.outLen = 0 ∨ (6 ≤ s.outLen.toNat ∧ s.outLen.toNat ≤ 261)
  encode_signal : statusLastop s.status = 0x4#4 → (statusOk s.status = 1 ↔ s.outLen ≠ 0)

/-- What OBUF holds for the host to transmit: whenever OUT_LEN is not 0, `OBUF[0 .. OUT_LEN)` is the frame of some valid address,
some command and some payload of at most 255 bytes (30_encoding.md R86, 70_reset_and_hazards.md R243, 92_eei_decisions.md D5). -/
def State.OutputIsFrame (s : State) : Prop :=
  s.outLen ≠ 0 → ∃ (a c : Byte) (p : List Byte),
    1 ≤ a.toNat ∧ a.toNat ≤ 247 ∧ p.length ≤ 255 ∧ s.outLen.toNat = 6 + p.length ∧
      readBytes s.obufByte 0 s.outLen.toNat = frameBytes a c p

end Sys2Proof.Machine
end

