-- ==== Sys2Proof/Certificates/Slice0/Obligations.lean ====
section
/-! DEFINITION. The statements for the provers. Numbers (STATUS values, codes, indices, lengths) are written out from the
rules, not taken from the model's constants, so that a wrong constant of the model makes a statement false. -/

open Sys2Proof Sys2Proof.Machine

/-! ### The command word -/

/-- Words written out from the table's patterns decode to their operations (30_encoding.md R80 to R82). -/
def Obligations.WrittenWordsDecode : Prop :=
  decode 0b00000000000000000000000000000000#32 = .nop ∧
  decode 0b00000000000000000000000000000011#32 = .crcBuf ∧
  decode 0b00000000000000000000000000000100#32 = .encode ∧
  decode 0b11111111111111111111111111110101#32 = .decode ∧
  decode 0b10100101101001011010010110100110#32 = .replyPack ∧
  decode 0b00000000000000000000000000001100#32 = .reservedC

/-- Decode and encode agree (R80, R81): every word with an operation's code in OP decodes to it, whatever its ignored bits;
and every word is the encoding of what it decodes to, with its own ignored bits. -/
def Obligations.DecodeEncodeAgree : Prop :=
  (∀ (ignored : BitVec 28) (i : Instr), decode (encodeWith ignored i) = i) ∧
  ∀ w : Word, encodeWith (w.extractLsb' 4 28) (decode w) = w

/-- R80: two words with the same bits [3:0] are the same command, and a write of either to CTRL does the same. -/
def Obligations.OnlyOpFieldMatters : Prop :=
  ∀ (s : State) (w w' : Word), (∀ k, k < 4 → w.getLsbD k = w'.getLsbD k) →
    decode w = decode w' ∧ regWrite s 0x000#12 w = regWrite s 0x000#12 w'

/-! ### Steps and the host port -/

/-- A step with a CTRL write pending runs the decoded operation; then the transaction is over, the later ones stay pending, and
nothing is returned (R50, R81; the pending list and the answer are the model's own, log entries 1, 3). -/
def Obligations.StepRunsTheCommand : Prop :=
  ∀ (s t : State) (data : Word) (rest : List Input),
    s.port = .regWrite 0x000#12 data :: rest → exec (decode data) s = .next t →
    step s = .next { t with port := rest, reply := none }

/-- A step with any other write pending does that write; a step with a read pending returns the value and changes no state of the
block; a step with nothing pending changes nothing (R51, R52, R9; log entries 1 to 3). -/
def Obligations.StepServesTheOtherInputs : Prop :=
  (∀ (s t : State) (idx : HostIndex) (data : Word) (rest : List Input),
    s.port = .regWrite idx data :: rest → idx ≠ 0x000#12 → regWrite s idx data = .next t →
    step s = .next { t with port := rest, reply := none }) ∧
  (∀ (s : State) (idx : HostIndex) (rest : List Input), s.port = .regRead idx :: rest →
    step s = .next { s with port := rest, reply := some (regRead s idx) }) ∧
  ∀ s : State, s.port = [] → step s = .next s

/-- No input faults, stalls or is refused: every step from every state answers a next state. For a transaction that is R56 and
R204, for the reset input R230 and R232. That the step with no input pending answers a next state (the same one) is the model's
choice (log entry 2), and that the machine has no fault at all is read from the spec by inference (log entry 8). -/
def Obligations.EveryStepAnswersNext : Prop := ∀ s : State, ∃ t, step s = .next t

/-- After as many steps as inputs are pending, every input has been served (every transaction terminates: R53, R58, R246). The list
of pending inputs is the model's own (log entry 1), and that an input issued after a reset survives it, to be served after it, is
the model's choice (log entry 7), as is what a step does once the list is empty (log entry 2). -/
def Obligations.PendingInputsAreAllServed : Prop :=
  ∀ s : State, ∃ t : State, Host.Core.run Sys2Proof.core s.port.length s = .next t ∧ t.port = []

/-- Sequential consistency (R66): a transaction is served as R51 or R52 says of the state before it; serving the earlier inputs gives
the same state whatever later inputs are pending behind them, and those stay pending; and serving all of them is serving the
earlier ones, then the later ones. The list of pending inputs and the field that holds the answer are the model's own (log
entries 1, 3); that later inputs survive a reset among the earlier ones is the model's choice (log entry 7). -/
def Obligations.TransactionsTakeEffectInIssueOrder : Prop :=
  (∀ (s t : State) (idx : HostIndex) (data : Word) (rest : List Input),
    s.port = .regWrite idx data :: rest → regWrite s idx data = .next t →
    Host.Core.run Sys2Proof.core 1 s = .next { t with port := rest, reply := none }) ∧
  (∀ (s : State) (idx : HostIndex) (rest : List Input), s.port = .regRead idx :: rest →
    Host.Core.run Sys2Proof.core 1 s = .next { s with port := rest, reply := some (regRead s idx) }) ∧
  ∀ (s t : State) (earlier later : List Input),
    Host.Core.run Sys2Proof.core earlier.length { s with port := earlier } = .next t →
    Host.Core.run Sys2Proof.core earlier.length { s with port := earlier ++ later } = .next { t with port := later } ∧
    Host.Core.run Sys2Proof.core (earlier ++ later).length { s with port := earlier ++ later } =
      Host.Core.run Sys2Proof.core later.length { t with port := later }

/-- R52: what RegRead returns, class by class: each register zero-extended (CTRL as 0), a byte of either window in bits [7:0], 0 at
every reserved index; and that a read changes no state. -/
def Obligations.RegReadByClass : Prop :=
  ∀ s : State, (∀ idx, serve s (.regRead idx) = .next s ∧ answer s (.regRead idx) = some (regRead s idx)) ∧
    regRead s 0x000#12 = 0 ∧
    regRead s 0x001#12 = s.status.setWidth 32 ∧ regRead s 0x002#12 = s.crcAcc.setWidth 32 ∧
    regRead s 0x003#12 = s.crcDin.setWidth 32 ∧ regRead s 0x004#12 = s.fAddr.setWidth 32 ∧
    regRead s 0x005#12 = s.fCmd.setWidth 32 ∧ regRead s 0x006#12 = s.pOff.setWidth 32 ∧
    regRead s 0x007#12 = s.pLen.setWidth 32 ∧ regRead s 0x008#12 = s.inLen.setWidth 32 ∧
    regRead s 0x009#12 = s.outCap.setWidth 32 ∧ regRead s 0x00A#12 = s.outLen.setWidth 32 ∧
    regRead s 0x00B#12 = s.dAddr.setWidth 32 ∧ regRead s 0x00C#12 = s.dCmd.setWidth 32 ∧
    regRead s 0x00D#12 = s.ch0.setWidth 32 ∧ regRead s 0x00E#12 = s.ch1.setWidth 32 ∧
    regRead s 0x00F#12 = s.ch2.setWidth 32 ∧ regRead s 0x010#12 = s.ch3.setWidth 32 ∧
    (∀ idx : HostIndex, 0x200 ≤ idx.toNat → idx.toNat ≤ 0x3FF →
      regRead s idx = (s.ibufByte (idx.toNat - 0x200)).setWidth 32) ∧
    (∀ idx : HostIndex, 0x400 ≤ idx.toNat → idx.toNat ≤ 0x5FF →
      regRead s idx = (s.obufByte (idx.toNat - 0x400)).setWidth 32) ∧
    (∀ idx : HostIndex, 0x011 ≤ idx.toNat → idx.toNat ≤ 0x1FF → regRead s idx = 0) ∧
    ∀ idx : HostIndex, 0x600 ≤ idx.toNat → regRead s idx = 0

/-- R55: for every register that R20 marks RW, at its index and with its width as R20 gives them, a write stores bits [w-1:0] and
drops the others, a read gives them back zero-extended, and every other index reads as before; a read of any register is zero
above its width; and a channel given -100 reads 0x0000FF9C. The same is said of the registers as the model names them. -/
def Obligations.RegisterWriteReadsBack : Prop :=
  (∀ p ∈ [(0x003#12, 8), (0x004#12, 8), (0x005#12, 8), (0x006#12, 9), (0x007#12, 9), (0x008#12, 16), (0x009#12, 16),
      (0x00D#12, 16), (0x00E#12, 16), (0x00F#12, 16), (0x010#12, 16)], ∀ (s : State) (data : Word),
    ∃ t, regWrite s p.1 data = .next t ∧ (regRead t p.1).toNat = data.toNat % 2 ^ p.2 ∧
      ∀ idx, idx ≠ p.1 → regRead t idx = regRead s idx) ∧
  (∀ p ∈ [(0x001#12, 12), (0x002#12, 16), (0x003#12, 8), (0x004#12, 8), (0x005#12, 8), (0x006#12, 9), (0x007#12, 9),
      (0x008#12, 16), (0x009#12, 16), (0x00A#12, 16), (0x00B#12, 8), (0x00C#12, 8), (0x00D#12, 16), (0x00E#12, 16),
      (0x00F#12, 16), (0x010#12, 16)], ∀ s : State, (regRead s p.1).toNat < 2 ^ p.2) ∧
  (∀ (s : State) (r : Reg) (data : Word), r.access = .rw →
    ∃ t, regWrite s r.index data = .next t ∧ (regRead t r.index).toNat = data.toNat % 2 ^ r.width ∧
      OnlyRegsChange [r] s t) ∧
  (∀ (s : State) (r : Reg), (regRead s r.index).toNat < 2 ^ r.width) ∧
  ∀ (s : State), ∀ idx ∈ [0x00D#12, 0x00E#12, 0x00F#12, 0x010#12],
    ∃ t, regWrite s idx 0xFFFFFF9C#32 = .next t ∧ regRead t idx = 0x0000FF9C#32

/-- R56: writes of read-only registers, of the OBUF window and of reserved indices are ignored; reserved indices read 0; and
no access to any index stops the block. -/
def Obligations.IgnoredWrites : Prop :=
  ∀ (s : State) (data : Word), (∀ idx, (∃ t, regWrite s idx data = .next t) ∧ serve s (.regRead idx) = .next s) ∧
    (∀ idx ∈ [0x001#12, 0x002#12, 0x00A#12, 0x00B#12, 0x00C#12], regWrite s idx data = .next s) ∧
    (∀ idx : HostIndex, 0x400 ≤ idx.toNat → idx.toNat ≤ 0x5FF → regWrite s idx data = .next s) ∧
    (∀ idx : HostIndex, 0x011 ≤ idx.toNat → idx.toNat ≤ 0x1FF → regWrite s idx data = .next s ∧ regRead s idx = 0) ∧
    ∀ idx : HostIndex, 0x600 ≤ idx.toNat → regWrite s idx data = .next s ∧ regRead s idx = 0

/-- R51, R57: a write in the IBUF window stores data[7:0] in exactly one byte of IBUF and changes nothing else. -/
def Obligations.IbufWindowWriteStoresOneByte : Prop :=
  ∀ (s : State) (idx : HostIndex) (data : Word), 0x200 ≤ idx.toNat → idx.toNat ≤ 0x3FF →
    ∃ t, regWrite s idx data = .next t ∧
      (t.ibufByte (idx.toNat - 0x200)).toNat = data.toNat % 256 ∧
      (∀ a, a ≠ idx.toNat - 0x200 → t.ibufByte a = s.ibufByte a) ∧
      RegsSame [] s t ∧ ObufSame s t ∧ ModelSame s t

/-- R63: a write other than one to CTRL is idempotent. -/
def Obligations.WritesOtherThanCtrlAreIdempotent : Prop :=
  ∀ (s : State) (idx : HostIndex) (data : Word), idx ≠ 0x000#12 →
    ∃ t, regWrite s idx data = .next t ∧ regWrite t idx data = .next t

/-! ### Reset and invariants -/

/-- R230: the registers right after reset, the first one and any later one; CTRL has no storage and reads 0. -/
def Obligations.ResetValues : Prop :=
  State.reset.status = 0x000#12 ∧ State.reset.crcAcc = 0xFFFF#16 ∧
  (∀ r ∈ [Reg.crcDin, .fAddr, .fCmd, .dAddr, .dCmd, .pOff, .pLen, .inLen, .outCap, .outLen, .ch0, .ch1, .ch2, .ch3],
    State.reset.readReg r = 0) ∧
  (∀ s : State, (hostReset s).status = 0x000#12 ∧ (hostReset s).crcAcc = 0xFFFF#16 ∧
    ∀ r, (hostReset s).readReg r = State.reset.readReg r) ∧
  ∀ s : State, s.readReg .ctrl = 0

/-- The reset input, from any state: every register at its reset value, every byte of both buffers the free byte of a new epoch, so
neither zero nor the value before (R230, R231); later inputs stay pending (the model's choice, log entry 7). Holds for every value
of the count of resets. -/
def Obligations.ResetInputResets : Prop :=
  ∀ (s : State) (rest : List Input), s.port = .reset :: rest →
    ∃ t, step s = .next t ∧ (∀ r, t.readReg r = State.reset.readReg r) ∧
      (∀ a, t.ibufByte a = Config.ibufAtReset (s.resets + 1) a) ∧
      (∀ a, t.obufByte a = Config.obufAtReset (s.resets + 1) a) ∧ t.port = rest

/-- The state right after reset meets both invariants. -/
def Obligations.ResetMeetsTheInvariants : Prop := State.reset.Inv ∧ State.reset.OutputIsFrame

/-- Every step keeps the structural invariant `State.Inv`: STATUS legal (R22, R200), D_ADDR in 1 to 247 while STATUS shows a
successful DECODE and at any time in 1 to 247 or 0 (R32), OUT_LEN 0 or in 6 to 261 (R31), OUT_LEN and OK agreeing after an ENCODE
(90_conflicts.md C9), no buffer index of 512 or more (R205). The canonical form of the buffers, which it keeps too, is the
model's own representation (log entry 5). -/
def Obligations.StepKeepsInvariant : Prop := ∀ s t : State, s.Inv → step s = .next t → t.Inv

/-- Every step keeps OBUF[0 .. OUT_LEN) a frame whenever OUT_LEN is not 0: what the host may transmit is always one whole frame
with a valid address and the right checksum (R86, R243). -/
def Obligations.StepKeepsOutputFrame : Prop :=
  ∀ s t : State, s.OutputIsFrame → step s = .next t → t.OutputIsFrame

/-! ### checksum_gen -/

/-- R101: the empty sequence gives 0xFFFF; the checksum of a concatenation goes on from the checksum of its first part; order
matters. (That crc_step is total is in its type.) -/
def Obligations.Crc16Properties : Prop :=
  crc16 [] = 0xFFFF#16 ∧
  (∀ p q : List Byte, crc16 (p ++ q) = q.foldl crcStep (crc16 p)) ∧
  crc16 [0x01#8, 0x03#8] ≠ crc16 [0x03#8, 0x01#8]

/-- The worked examples S1, S2, S3 of the source (95_test_vectors.md). -/
def Obligations.Crc16WorkedExamples : Prop :=
  crc16 [] = 0xFFFF#16 ∧ crc16 [0x03#8, 0x01#8, 0x00#8] = 0x5080#16 ∧
  crc16 [0x03#8, 0x02#8, 0x08#8, 0xEB#8, 0x00#8, 0xC6#8, 0x00#8, 0xFF#8, 0x7F#8, 0xFF#8, 0x7F#8] = 0xEB90#16

/-- crc_step is linear over XOR in the register and the byte together: it is a division by a polynomial, with no carry
(R100). -/
def Obligations.CrcStepIsLinear : Prop :=
  ∀ (r r' : Half) (b b' : Byte), crcStep (r ^^^ r') (b ^^^ b') = crcStep r b ^^^ crcStep r' b'

/-- A sequence followed by its own checksum, low byte first, has the checksum 0: what the receiver of a frame sees (R100,
R60, R106). -/
def Obligations.ChecksumOfSequenceWithItsChecksumIsZero : Prop :=
  ∀ p : List Byte, crc16 (p ++ [(crc16 p).extractLsb' 0 8, (crc16 p).extractLsb' 8 8]) = 0

/-- R102: CRC_INIT, code 1, from every state; running it twice gives the same state as once. -/
def Obligations.CrcInitResult : Prop :=
  HasCode 0x1 .crcInit ∧ ∀ s : State, ∃ t, exec .crcInit s = .next t ∧ t.crcAcc = 0xFFFF#16 ∧ t.status = 0x101#12 ∧
    OnlyRegsChange [.crcAcc, .status] s t ∧ exec .crcInit t = .next t

/-- R103: CRC_BYTE, code 2, from every state: it goes on from what CRC_ACC holds, CRC_DIN stays, so a second one feeds the same byte
again; and "For byte 0x00, crc_step has exactly two fixed points, 0x0000 and 0xC001". -/
def Obligations.CrcByteResult : Prop :=
  HasCode 0x2 .crcByte ∧
  (∀ s : State, ∃ t, exec .crcByte s = .next t ∧ t.crcAcc = crcStep s.crcAcc s.crcDin ∧ t.status = 0x201#12 ∧
    OnlyRegsChange [.crcAcc, .status] s t ∧
    ∃ u, exec .crcByte t = .next u ∧ u.crcAcc = crcStep (crcStep s.crcAcc s.crcDin) s.crcDin) ∧
  ∀ r : Half, crcStep r 0x00#8 = r ↔ r = 0x0000#16 ∨ r = 0xC001#16

/-- R104: CRC_BUF, code 3, when the view lies in IBUF and when it runs past its end. -/
def Obligations.CrcBufResult : Prop :=
  HasCode 0x3 .crcBuf ∧
  (∀ s : State, s.pOff.toNat + s.pLen.toNat ≤ 512 →
    ∃ t, exec .crcBuf s = .next t ∧ t.crcAcc = crc16 (readBytes s.ibufByte s.pOff.toNat s.pLen.toNat) ∧
      t.status = 0x301#12 ∧ OnlyRegsChange [.crcAcc, .status] s t) ∧
  ∀ s : State, s.pOff.toNat + s.pLen.toNat > 512 →
    ∃ t, exec .crcBuf s = .next t ∧ t.status = 0x390#12 ∧ OnlyRegsChange [.status] s t

/-- R105: CRC_INIT and one CRC_BYTE for each byte of a sequence leave CRC_ACC the checksum of the sequence, the same value CRC_BUF
gives for that sequence held in IBUF. From every state, for every sequence. -/
def Obligations.StreamingChecksumEqualsOneShot : Prop :=
  ∀ (s : State) (bs : List Byte),
    ∃ t : State, Host.Core.run Sys2Proof.core (1 + 2 * bs.length)
        { s with port := (Stmt.op .crcInit :: bs.flatMap crcfeed).map Stmt.input } = .next t ∧
      t.crcAcc = crc16 bs ∧
      ∀ u : State, u.pOff.toNat + u.pLen.toNat ≤ 512 → readBytes u.ibufByte u.pOff.toNat u.pLen.toNat = bs →
        ∃ v, exec .crcBuf u = .next v ∧ v.crcAcc = t.crcAcc

/-! ### frame_encoder -/

/-- R121: ENCODE, code 4. On success the bytes it writes, their count, STATUS, and all it leaves as it was; on the first failing check its
code, OUT_LEN 0 and nothing else changed. -/
def Obligations.EncodeResult : Prop :=
  let fails := fun (s : State) (st : BitVec 12) =>
    ∃ t, exec .encode s = .next t ∧ t.status = st ∧ t.outLen = 0 ∧ OnlyRegsChange [.status, .outLen] s t
  HasCode 0x4 .encode ∧
  (∀ (s : State) (n : Nat) (crc : Half), n = s.pLen.toNat →
    crc = crc16 ([s.fAddr, s.fCmd, BitVec.ofNat 8 n] ++ readBytes s.ibufByte s.pOff.toNat n) →
    1 ≤ s.fAddr.toNat → s.fAddr.toNat ≤ 247 → n ≤ 255 → s.pOff.toNat + n ≤ 512 → 6 + n ≤ s.outCap.toNat →
    ∃ t, exec .encode s = .next t ∧ t.status = 0x401#12 ∧ t.outLen.toNat = 6 + n ∧
      t.obufByte 0 = 0x01#8 ∧ t.obufByte 1 = s.fAddr ∧ t.obufByte 2 = s.fCmd ∧ (t.obufByte 3).toNat = n ∧
      (∀ k, k < n → t.obufByte (4 + k) = s.ibufByte (s.pOff.toNat + k)) ∧
      t.obufByte (4 + n) = crc.extractLsb' 0 8 ∧ t.obufByte (5 + n) = crc.extractLsb' 8 8 ∧
      (∀ a, 6 + n ≤ a → t.obufByte a = s.obufByte a) ∧
      RegsSame [.status, .outLen] s t ∧ IbufSame s t ∧ ModelSame s t) ∧
  (∀ s : State, s.fAddr = 0 ∨ 247 < s.fAddr.toNat → fails s 0x460#12) ∧
  (∀ s : State, 1 ≤ s.fAddr.toNat → s.fAddr.toNat ≤ 247 → 255 < s.pLen.toNat → fails s 0x480#12) ∧
  (∀ s : State, 1 ≤ s.fAddr.toNat → s.fAddr.toNat ≤ 247 → s.pLen.toNat ≤ 255 →
    512 < s.pOff.toNat + s.pLen.toNat → fails s 0x490#12) ∧
  ∀ s : State, 1 ≤ s.fAddr.toNat → s.fAddr.toNat ≤ 247 → s.pLen.toNat ≤ 255 →
    s.pOff.toNat + s.pLen.toNat ≤ 512 → s.outCap.toNat < 6 + s.pLen.toNat → fails s 0x470#12

/-- R122: after a successful ENCODE, OBUF[0 .. OUT_LEN) is the frame of R86 for F_ADDR, F_CMD and the payload view. -/
def Obligations.EncodedBytesAreTheFrame : Prop :=
  ∀ s t : State, exec .encode s = .next t → t.status.getLsbD 0 = true →
    readBytes t.obufByte 0 t.outLen.toNat =
      frameBytes s.fAddr s.fCmd (readBytes s.ibufByte s.pOff.toNat s.pLen.toNat)

/-- OUT_LEN is the success signal of ENCODE: 0 exactly when STATUS.OK is 0, at least 6 otherwise; and no other operation writes it
(R31, R120; 90_conflicts.md C9). -/
def Obligations.OutLenIsTheSuccessSignal : Prop :=
  (∀ s t : State, exec .encode s = .next t →
    (t.outLen = 0 ↔ t.status.getLsbD 0 = false) ∧ (t.outLen ≠ 0 → t.outLen.toNat = 6 + s.pLen.toNat)) ∧
  ∀ (i : Instr) (s t : State), i ≠ .encode → exec i s = .next t → t.outLen = s.outLen

/-- R123: a frame ENCODE made, copied to IBUF with IN_LEN set to its length, is decoded to the same address, command and
payload. -/
def Obligations.EncodeThenDecodeRoundTrip : Prop :=
  ∀ s t u : State, exec .encode s = .next t → t.status.getLsbD 0 = true →
    (∀ k, k < t.outLen.toNat → u.ibufByte k = t.obufByte k) → u.inLen = t.outLen →
    ∃ v, exec .decode u = .next v ∧ v.status = 0x501#12 ∧ v.dAddr = s.fAddr ∧ v.dCmd = s.fCmd ∧
      v.pOff.toNat = 4 ∧ v.pLen = s.pLen ∧
      ∀ k, k < s.pLen.toNat → v.ibufByte (4 + k) = s.ibufByte (s.pOff.toNat + k)

/-- R130: REPLY_PACK, code 6, from every state. -/
def Obligations.ReplyPackResult : Prop :=
  HasCode 0x6 .replyPack ∧ ∀ s : State, ∃ t, exec .replyPack s = .next t ∧
    t.ibufByte 0 = s.ch0.extractLsb' 0 8 ∧ t.ibufByte 1 = s.ch0.extractLsb' 8 8 ∧
    t.ibufByte 2 = s.ch1.extractLsb' 0 8 ∧ t.ibufByte 3 = s.ch1.extractLsb' 8 8 ∧
    t.ibufByte 4 = s.ch2.extractLsb' 0 8 ∧ t.ibufByte 5 = s.ch2.extractLsb' 8 8 ∧
    t.ibufByte 6 = s.ch3.extractLsb' 0 8 ∧ t.ibufByte 7 = s.ch3.extractLsb' 8 8 ∧
    t.pOff.toNat = 0 ∧ t.pLen.toNat = 8 ∧ t.status = 0x601#12 ∧
    (∀ a, 8 ≤ a → t.ibufByte a = s.ibufByte a) ∧
    RegsSame [.pOff, .pLen, .status] s t ∧ ObufSame s t ∧ ModelSame s t

/-- R131: REPLY_PACK, then, whatever else happens to the state but for IBUF[0 .. 8), P_OFF and P_LEN, REPLY_UNPACK gives the channels
back. -/
def Obligations.ReplyPackThenUnpack : Prop :=
  ∀ s t u : State, exec .replyPack s = .next t →
    (∀ k, k < 8 → u.ibufByte k = t.ibufByte k) → u.pOff = t.pOff → u.pLen = t.pLen →
    ∃ v, exec .replyUnpack u = .next v ∧ v.status = 0x701#12 ∧
      v.ch0 = s.ch0 ∧ v.ch1 = s.ch1 ∧ v.ch2 = s.ch2 ∧ v.ch3 = s.ch3

/-- Every int16 is the reading of its own pattern, and -100 is sent as `9C FF` (R12, R60, R90; 95_test_vectors.md S9). -/
def Obligations.Int16Patterns : Prop :=
  (∀ x : Int, -32768 ≤ x → x ≤ 32767 → s16 (u16 x) = x) ∧ halfBytes (u16 (-100)) = [0x9C#8, 0xFF#8] ∧
  halfBytes 0x7FFF#16 = [0xFF#8, 0x7F#8]

/-! ### frame_decoder -/

/-- R151: DECODE, code 5. On a valid frame what it exposes and all it leaves as it was; else the code of the first of its five checks that
fails, and then STATUS only changes. -/
def Obligations.DecodeResult : Prop :=
  let fails := fun (s : State) (st : BitVec 12) =>
    ∃ t, exec .decode s = .next t ∧ t.status = st ∧ OnlyRegsChange [.status] s t
  let rx := fun (s : State) (n : Nat) =>
    (s.ibufByte (4 + n)).setWidth 16 ||| ((s.ibufByte (5 + n)).setWidth 16 <<< 8)
  HasCode 0x5 .decode ∧
  (∀ (s : State) (n : Nat), n = (s.ibufByte 3).toNat → 6 ≤ s.inLen.toNat → s.ibufByte 0 = 0x01#8 →
    n + 6 = s.inLen.toNat → crc16 (readBytes s.ibufByte 1 (3 + n)) = rx s n →
    1 ≤ (s.ibufByte 1).toNat → (s.ibufByte 1).toNat ≤ 247 →
    ∃ t, exec .decode s = .next t ∧ t.status = 0x501#12 ∧ t.dAddr = s.ibufByte 1 ∧ t.dCmd = s.ibufByte 2 ∧
      t.pOff.toNat = 4 ∧ t.pLen.toNat = n ∧ OnlyRegsChange [.status, .dAddr, .dCmd, .pOff, .pLen] s t) ∧
  (∀ s : State, s.inLen.toNat < 6 → fails s 0x510#12) ∧
  (∀ s : State, 6 ≤ s.inLen.toNat → s.ibufByte 0 ≠ 0x01#8 → fails s 0x520#12) ∧
  (∀ s : State, 6 ≤ s.inLen.toNat → s.ibufByte 0 = 0x01#8 →
    (s.ibufByte 3).toNat + 6 ≠ s.inLen.toNat → fails s 0x530#12) ∧
  (∀ (s : State) (n : Nat), n = (s.ibufByte 3).toNat → 6 ≤ s.inLen.toNat → s.ibufByte 0 = 0x01#8 →
    n + 6 = s.inLen.toNat → crc16 (readBytes s.ibufByte 1 (3 + n)) ≠ rx s n → fails s 0x540#12) ∧
  ∀ (s : State) (n : Nat), n = (s.ibufByte 3).toNat → 6 ≤ s.inLen.toNat → s.ibufByte 0 = 0x01#8 →
    n + 6 = s.inLen.toNat → crc16 (readBytes s.ibufByte 1 (3 + n)) = rx s n →
    s.ibufByte 1 = 0 ∨ 247 < (s.ibufByte 1).toNat → fails s 0x550#12

/-- R152: what a successful DECODE guarantees of the state it leaves. -/
def Obligations.DecodeSuccessGuarantees : Prop :=
  ∀ s t : State, exec .decode s = .next t → t.status.getLsbD 0 = true →
    6 ≤ t.inLen.toNat ∧ t.inLen.toNat ≤ 261 ∧ t.ibufByte 0 = 0x01#8 ∧ (t.ibufByte 3).toNat = t.pLen.toNat ∧
    t.inLen.toNat = 6 + t.pLen.toNat ∧ 1 ≤ t.dAddr.toNat ∧ t.dAddr.toNat ≤ 247 ∧ t.dCmd = t.ibufByte 2 ∧
    memRead t.ibufByte (4 + t.pLen.toNat) 2 = (crc16 (readBytes t.ibufByte 1 (3 + t.pLen.toNat))).toNat ∧
    t.pOff.toNat = 4

/-- R153: what DECODE's answer depends on, check by check: IN_LEN only when IN_LEN < 6; IBUF[0] too when it is not the sentinel;
IBUF[3] too when check 3 fails; IBUF[0 .. IN_LEN), with IN_LEN at most 261, when check 3 passes. With IN_LEN above 512 it reports
D_SENTINEL or D_LENGTH. -/
def Obligations.DecodeReadsOnlyTheInboundFrame : Prop :=
  (∀ s s' t t' : State, s'.inLen = s.inLen →
    (6 ≤ s.inLen.toNat → s'.ibufByte 0 = s.ibufByte 0) →
    (6 ≤ s.inLen.toNat → s.ibufByte 0 = 0x01#8 → s'.ibufByte 3 = s.ibufByte 3) →
    (6 ≤ s.inLen.toNat → s.ibufByte 0 = 0x01#8 → (s.ibufByte 3).toNat + 6 = s.inLen.toNat →
      s.inLen.toNat ≤ 261 → ∀ k, k < s.inLen.toNat → s'.ibufByte k = s.ibufByte k) →
    exec .decode s = .next t → exec .decode s' = .next t' →
    t'.status = t.status ∧
      (t.status.getLsbD 0 = true → t'.dAddr = t.dAddr ∧ t'.dCmd = t.dCmd ∧ t'.pOff = t.pOff ∧ t'.pLen = t.pLen)) ∧
  (∀ s : State, (s.ibufByte 3).toNat + 6 = s.inLen.toNat → s.inLen.toNat ≤ 261) ∧
  ∀ s : State, 512 < s.inLen.toNat →
    ∃ t, exec .decode s = .next t ∧ t.status = if s.ibufByte 0 ≠ 0x01#8 then 0x520#12 else 0x530#12

/-- R154: one bit flipped in either checksum byte of a frame DECODE accepts makes it fail with D_CHECKSUM. -/
def Obligations.ChecksumBitFlipIsRejected : Prop :=
  ∀ (s t s' : State) (flipped bit : Nat), exec .decode s = .next t → t.status.getLsbD 0 = true →
    flipped = 4 + t.pLen.toNat ∨ flipped = 5 + t.pLen.toNat → bit < 8 →
    s'.inLen = s.inLen → s'.ibufByte flipped = s.ibufByte flipped ^^^ (1#8 <<< bit) →
    (∀ a, a ≠ flipped → s'.ibufByte a = s.ibufByte a) →
    ∃ t', exec .decode s' = .next t' ∧ t'.status = 0x540#12

/-- R160: REPLY_UNPACK, code 7, on a view of 8 bytes inside IBUF and on any other. -/
def Obligations.ReplyUnpackResult : Prop :=
  let field := fun (s : State) (i : Nat) => s.ibufByte (s.pOff.toNat + i + 1) ++ s.ibufByte (s.pOff.toNat + i)
  HasCode 0x7 .replyUnpack ∧
  (∀ s : State, s.pLen.toNat = 8 → s.pOff.toNat + 8 ≤ 512 →
    ∃ t, exec .replyUnpack s = .next t ∧ t.ch0 = field s 0 ∧ t.ch1 = field s 2 ∧ t.ch2 = field s 4 ∧ t.ch3 = field s 6 ∧
      t.status = 0x701#12 ∧ OnlyRegsChange [.ch0, .ch1, .ch2, .ch3, .status] s t) ∧
  (∀ s : State, s.pLen.toNat ≠ 8 →
    ∃ t, exec .replyUnpack s = .next t ∧ t.status = 0x7A0#12 ∧ OnlyRegsChange [.status] s t) ∧
  ∀ s : State, s.pLen.toNat = 8 → 512 < s.pOff.toNat + 8 →
    ∃ t, exec .replyUnpack s = .next t ∧ t.status = 0x790#12 ∧ OnlyRegsChange [.status] s t

/-! ### Control operations -/

/-- R180: NOP, and a CTRL write of any word whose bits [3:0] are 0, change nothing at all. -/
def Obligations.NopChangesNothing : Prop :=
  (∀ s : State, exec .nop s = .next s) ∧
  ∀ (s : State) (data : Word), data.toNat % 16 = 0 → regWrite s 0x000#12 data = .next s

/-- R181: a reserved code is refused with ILLEGAL_OP and its own value in LASTOP; nothing but STATUS changes. -/
def Obligations.ReservedCodesReportIllegalOp : Prop :=
  (∀ s : State, ∀ p ∈ [(Instr.reserved8, 0x8B0#12), (.reserved9, 0x9B0#12), (.reservedA, 0xAB0#12), (.reservedB, 0xBB0#12),
      (.reservedC, 0xCB0#12), (.reservedD, 0xDB0#12), (.reservedE, 0xEB0#12), (.reservedF, 0xFB0#12)],
    ∃ t, exec p.1 s = .next t ∧ t.status = p.2 ∧ OnlyRegsChange [.status] s t) ∧
  ∀ (s : State) (data : Word), 8 ≤ data.toNat % 16 →
    ∃ t, regWrite s 0x000#12 data = .next t ∧ t.status.toNat = (data.toNat % 16) * 256 + 0xB0 ∧ OnlyRegsChange [.status] s t

/-! ### All operations -/

/-- Every operation other than NOP leaves STATUS with LASTOP its own code, the reserved bits 0, OK = 1 exactly when ERR = 0, and an
ERR of at most 0xB (R22, R200). -/
def Obligations.StatusAfterAnOperation : Prop :=
  ∀ (i : Instr) (s t : State), i ≠ .nop → exec i s = .next t →
    statusLastop t.status = i.opcode ∧ t.status.extractLsb' 1 3 = 0 ∧
    (t.status.getLsbD 0 = true ↔ t.status.extractLsb' 4 4 = 0) ∧ (t.status.extractLsb' 4 4).toNat ≤ 0xB

/-- R40, the write matrix: an operation that succeeds changes only its S and A registers, one that fails only its A registers; OBUF is
written by a successful ENCODE only, in [0 .. 6 + N); IBUF by REPLY_PACK only, in [0 .. 8); and CRC_INIT, CRC_BYTE and
REPLY_PACK cannot fail. -/
def Obligations.WriteMatrix : Prop :=
  ∀ (i : Instr) (s t : State), exec i s = .next t →
    (t.status.getLsbD 0 = true → RegsSame (regsWrittenOnSuccess i) s t) ∧
    (t.status.getLsbD 0 = false → RegsSame (regsWrittenOnFailure i) s t ∧ (i ≠ .nop → IbufSame s t ∧ ObufSame s t)) ∧
    (t.status.getLsbD 0 = false → i = .encode → t.outLen = 0) ∧
    (∀ a, i ≠ .replyPack ∨ 8 ≤ a → t.ibufByte a = s.ibufByte a) ∧
    (∀ a, i ≠ .encode ∨ 6 + s.pLen.toNat ≤ a → t.obufByte a = s.obufByte a) ∧
    (i = .nop → RegsSame [] s t) ∧ ModelSame s t ∧
    (i ∈ [Instr.crcInit, .crcByte, .replyPack] → t.status.getLsbD 0 = true)

/-- R204: a failure is precise. It writes STATUS with OK = 0, a code and LASTOP, and OUT_LEN = 0 for ENCODE only; everything else is
as before. -/
def Obligations.FailureIsPrecise : Prop :=
  ∀ (i : Instr) (s t : State), i ≠ .nop → exec i s = .next t → t.status.getLsbD 0 = false →
    (∃ c ∈ failuresOf i, t.status = i.opcode ++ c.code ++ 0#4) ∧ (i = .encode → t.outLen = 0) ∧
    OnlyRegsChange (if i = .encode then [.status, .outLen] else [.status]) s t

/-- Each operation is a function of the operands R82 lists, the bytes of IBUF among them for CRC_BUF, ENCODE, DECODE and REPLY_UNPACK
only: what it reports and, if it succeeds, every register and buffer byte it writes do not depend on anything else (R38, R39,
R82). -/
def Obligations.OperationsAreFunctionsOfTheirOperands : Prop :=
  ∀ (i : Instr) (s s' t t' : State), i ≠ .nop →
    (∀ r ∈ operandRegs i, s'.readReg r = s.readReg r) →
    (i ∈ readsIbuf → ∀ a, a < 512 → s'.ibufByte a = s.ibufByte a) →
    exec i s = .next t → exec i s' = .next t' →
    t'.status = t.status ∧
      (t.status.getLsbD 0 = true → (∀ r ∈ regsWrittenOnSuccess i, t'.readReg r = t.readReg r) ∧
        (i = .encode → ∀ a, a < t.outLen.toNat → t'.obufByte a = t.obufByte a) ∧
        (i = .replyPack → ∀ a, a < 8 → t'.ibufByte a = t.ibufByte a))

/-- No operation writes a buffer byte at an index of 512 or more, and none depends on one: on two states with the same registers and
the same 512 bytes in each buffer it leaves the same registers and the same 512 bytes (R205, R57). -/
def Obligations.OperationsStayInsideTheBuffers : Prop :=
  (∀ (i : Instr) (s t : State), exec i s = .next t →
    ∀ a, 512 ≤ a → t.ibufByte a = s.ibufByte a ∧ t.obufByte a = s.obufByte a) ∧
  ∀ (i : Instr) (s s' t t' : State), RegsSame [] s s' →
    (∀ a, a < 512 → s'.ibufByte a = s.ibufByte a ∧ s'.obufByte a = s.obufByte a) →
    exec i s = .next t → exec i s' = .next t' →
    RegsSame [] t t' ∧ ∀ a, a < 512 → t'.ibufByte a = t.ibufByte a ∧ t'.obufByte a = t.obufByte a

/-- The payload view is a range of live bytes, not a copy (R69, R240). A host write to the k-th byte the view names changes that byte, and
no other, of the payload that each of its three readers then reads: CRC_BUF, ENCODE and REPLY_UNPACK. And after a REPLY_PACK the
payload that CRC_BUF and ENCODE read is the packed channels (REPLY_UNPACK: ReplyPackThenUnpack). -/
def Obligations.PayloadViewIsLive : Prop :=
  let byteIndex := fun (s : State) (k : Nat) => BitVec.ofNat 12 (0x200 + s.pOff.toNat + k)
  let rewritten := fun (s : State) (k : Nat) (data : Word) =>
    (readBytes s.ibufByte s.pOff.toNat s.pLen.toNat).set k (data.setWidth 8)
  let packed := fun (s : State) => [s.ch0.extractLsb' 0 8, s.ch0.extractLsb' 8 8, s.ch1.extractLsb' 0 8, s.ch1.extractLsb' 8 8,
    s.ch2.extractLsb' 0 8, s.ch2.extractLsb' 8 8, s.ch3.extractLsb' 0 8, s.ch3.extractLsb' 8 8]
  (∀ (s : State) (k : Nat) (data : Word), k < s.pLen.toNat → s.pOff.toNat + s.pLen.toNat ≤ 512 →
    ∃ t u, regWrite s (byteIndex s k) data = .next t ∧ exec .crcBuf t = .next u ∧ u.crcAcc = crc16 (rewritten s k data)) ∧
  (∀ (s : State) (k : Nat) (data : Word), k < s.pLen.toNat → s.pLen.toNat ≤ 255 → s.pOff.toNat + s.pLen.toNat ≤ 512 →
    1 ≤ s.fAddr.toNat → s.fAddr.toNat ≤ 247 → 6 + s.pLen.toNat ≤ s.outCap.toNat →
    ∃ t u, regWrite s (byteIndex s k) data = .next t ∧ exec .encode t = .next u ∧ u.outLen.toNat = 6 + s.pLen.toNat ∧
      readBytes u.obufByte 0 u.outLen.toNat = frameBytes s.fAddr s.fCmd (rewritten s k data)) ∧
  (∀ (s : State) (k : Nat) (data : Word), k < 8 → s.pLen.toNat = 8 → s.pOff.toNat + 8 ≤ 512 →
    ∃ t u, regWrite s (byteIndex s k) data = .next t ∧ exec .replyUnpack t = .next u ∧ packed u = rewritten s k data) ∧
  (∀ s : State, ∃ t u, exec .replyPack s = .next t ∧ exec .crcBuf t = .next u ∧ u.crcAcc = crc16 (packed s)) ∧
  ∀ s : State, 1 ≤ s.fAddr.toNat → s.fAddr.toNat ≤ 247 → 14 ≤ s.outCap.toNat →
    ∃ t u, exec .replyPack s = .next t ∧ exec .encode t = .next u ∧ u.outLen.toNat = 14 ∧
      readBytes u.obufByte 0 14 = frameBytes s.fAddr s.fCmd (packed s)

/-- ENCODE and DECODE do not read or write CRC_ACC (R23, R106). -/
def Obligations.EncodeAndDecodeIgnoreCrcAcc : Prop :=
  ∀ (i : Instr) (s t : State) (v : Half), i = .encode ∨ i = .decode → exec i s = .next t →
    t.crcAcc = s.crcAcc ∧ exec i { s with crcAcc := v } = .next { t with crcAcc := v }

/-! ### The host notation -/

/-- `loadframe` (R92): its transactions leave IBUF[0 .. k) the bytes and IN_LEN their number, and change no other byte and no other
register. -/
def Obligations.LoadframeLoadsTheFrame : Prop :=
  ∀ (s : State) (bs : List Byte), bs.length ≤ 512 →
    ∃ t : State, Host.Core.run Sys2Proof.core (bs.length + 1) { s with port := (loadframe bs).map Stmt.input } = .next t ∧
      readBytes t.ibufByte 0 bs.length = bs ∧ t.inLen.toNat = bs.length ∧
      (∀ a, bs.length ≤ a → t.ibufByte a = s.ibufByte a) ∧ RegsSame [.inLen] s t ∧ ObufSame s t

/-- `loopback` (R92), with the values the model gives its writes: its transactions copy OBUF[0 .. OUT_LEN) to IBUF and OUT_LEN to IN_LEN,
and change nothing else of the block. That the values written are the OBUF bytes and the OUT_LEN of the state loopback is issued
in, not taken from what the reads return, is the model's inference (log entry 13); the statement does not say what the reads
return. The transactions are issued through the model's own list (log entry 1). -/
def Obligations.LoopbackCopiesTheOutput : Prop :=
  ∀ s : State, s.outLen.toNat ≤ 512 →
    ∃ t : State, Host.Core.run Sys2Proof.core (loopback s).length { s with port := (loopback s).map Stmt.input } = .next t ∧
      (∀ a, a < s.outLen.toNat → t.ibufByte a = s.obufByte a) ∧ t.inLen = s.outLen ∧
      (∀ a, s.outLen.toNat ≤ a → t.ibufByte a = s.ibufByte a) ∧ RegsSame [.inLen] s t ∧ ObufSame s t

/-! ### The decoded address -/

/-- Once a DECODE has succeeded D_ADDR is in 1 to 247, and it stays so through every step but a reset; and a step that serves no reset
and changes D_ADDR or D_CMD serves a CTRL write that decodes to DECODE, that DECODE succeeds, and they are then bytes 1 and 2 of
IBUF, which it leaves: so they hold the last frame DECODE accepted (R32, R33, R151, R230). The pending list and the idle step,
which changes nothing, are the model's choice (log entries 1, 2). -/
def Obligations.DecodedAddressStaysValid : Prop :=
  (∀ s t : State, exec .decode s = .next t → t.status = 0x501#12 → 1 ≤ t.dAddr.toNat ∧ t.dAddr.toNat ≤ 247) ∧
  (∀ s t : State, 1 ≤ s.dAddr.toNat ∧ s.dAddr.toNat ≤ 247 → (∀ rest, s.port ≠ .reset :: rest) → step s = .next t →
    1 ≤ t.dAddr.toNat ∧ t.dAddr.toNat ≤ 247) ∧
  ∀ s t : State, (∀ rest, s.port ≠ .reset :: rest) → step s = .next t → t.dAddr ≠ s.dAddr ∨ t.dCmd ≠ s.dCmd →
    (∃ data rest, s.port = .regWrite 0x000#12 data :: rest ∧ decode data = .decode) ∧ t.status = 0x501#12 ∧
      t.dAddr = t.ibufByte 1 ∧ t.dCmd = t.ibufByte 2
end

