-- ==== Sys2Proof/Laws/Memory.lean ====
section
/-! SUPPORT. The laws of the byte list: reading after writing, the canonical form and its uniqueness. -/

namespace Sys2Proof.Machine

@[simp] theorem Memory.cell?_nil (a : Nat) : Memory.cell? [] a = none := rfl

/-- Reading after writing one byte. It needs no canonical form. -/
@[simp] theorem Memory.cell?_store (m : Memory) (a : Nat) (b : Byte) (x : Nat) :
    Memory.cell? (Memory.store m a b) x = if x = a then some b else Memory.cell? m x := by
  induction m with
  | nil => simp [Memory.store, Memory.cell?]
  | cons c rest ih =>
    obtain ⟨k, v⟩ := c
    simp only [Memory.store]
    split
    · simp [Memory.cell?]
    · split
      · subst_vars; simp only [Memory.cell?]; split <;> simp_all
      · simp only [Memory.cell?, ih]; split <;> split <;> simp_all

/-- Reading after writing a run of bytes. -/
theorem Memory.cell?_storeBytes (bs : List Byte) : ∀ (m : Memory) (a x : Nat),
    Memory.cell? (Memory.storeBytes m a bs) x =
      if a ≤ x ∧ x < a + bs.length then bs[x - a]? else Memory.cell? m x := by
  induction bs with
  | nil =>
    intro m a x
    simp only [Memory.storeBytes, List.length_nil, Nat.add_zero]
    rw [if_neg (by omega)]
  | cons b bs ih =>
    intro m a x
    simp only [Memory.storeBytes, ih, Memory.cell?_store, List.length_cons]
    rcases Nat.lt_trichotomy x a with h | h | h
    · rw [if_neg (by omega), if_neg (by omega), if_neg (by omega)]
    · subst h
      rw [if_neg (by omega), if_pos rfl, if_pos (by omega)]
      simp
    · by_cases h2 : x < a + 1 + bs.length
      · rw [if_pos (by omega), if_pos (by omega), show x - a = (x - (a + 1)) + 1 by omega]
        simp
      · rw [if_neg (by omega), if_neg (by omega), if_neg (by omega)]

/-- The indices of a written list: the old ones and the new one. -/
theorem Memory.mem_store {m : Memory} {a : Nat} {b : Byte} {c : Host.Cell} (h : c ∈ Memory.store m a b) :
    c = (a, b) ∨ c ∈ m := by
  induction m with
  | nil => simpa [Memory.store] using h
  | cons d rest ih =>
    simp only [Memory.store] at h
    split at h
    · simpa using h
    · split at h
      · rcases List.mem_cons.mp h with h | h
        · exact .inl h
        · exact .inr (List.mem_cons_of_mem _ h)
      · rcases List.mem_cons.mp h with h | h
        · exact .inr (h ▸ List.mem_cons_self)
        · exact (ih h).imp id (List.mem_cons_of_mem _)

/-- Writing a byte keeps the canonical form. -/
theorem Memory.store_wf {size : Nat} {m : Memory} {a : Nat} {b : Byte} (h : Memory.wf size m) (ha : a < size) :
    Memory.wf size (Memory.store m a b) := by
  refine ⟨?_, fun c hc => (Memory.mem_store hc).elim (fun e => e ▸ ha) (h.2 c)⟩
  obtain ⟨hp, -⟩ := h
  induction m with
  | nil => simp [Memory.store]
  | cons d rest ih =>
    obtain ⟨hd, hr⟩ := List.pairwise_cons.mp hp
    simp only [Memory.store]
    split
    · refine List.pairwise_cons.mpr ⟨fun c hc => ?_, hp⟩
      rcases List.mem_cons.mp hc with rfl | hc
      · assumption
      · exact Nat.lt_trans ‹_› (hd c hc)
    · split
      · subst_vars; exact List.pairwise_cons.mpr ⟨hd, hr⟩
      · refine List.pairwise_cons.mpr ⟨fun c hc => ?_, ih hr⟩
        rcases Memory.mem_store hc with rfl | hc
        · show d.1 < a; omega
        · exact hd c hc

/-- Writing a run of bytes inside the buffer keeps the canonical form. -/
theorem Memory.storeBytes_wf {size : Nat} (bs : List Byte) : ∀ {m : Memory} {a : Nat}, Memory.wf size m →
    a + bs.length ≤ size → Memory.wf size (Memory.storeBytes m a bs) := by
  induction bs with
  | nil => intro m a h _; exact h
  | cons b bs ih =>
    intro m a h ha
    simp only [List.length_cons] at ha
    exact ih (Memory.store_wf h (by omega)) (by omega)

theorem Memory.wf_nil (size : Nat) : Memory.wf size [] := by simp [Memory.wf]

/-- Writing the byte that stands there already, as the last write did, changes nothing. -/
theorem Memory.store_store_same (m : Memory) (a : Nat) (b : Byte) :
    Memory.store (Memory.store m a b) a b = Memory.store m a b := by
  induction m with
  | nil => simp [Memory.store]
  | cons d rest ih =>
    simp only [Memory.store]
    split
    · simp [Memory.store]
    · split
      · simp [Memory.store]
      · simp only [Memory.store, ih]
        rw [if_neg (by assumption), if_neg (by assumption)]

/-- An index below all listed ones is not listed. -/
theorem Memory.cell?_eq_none_of_lt {m : Memory} {a : Nat} (h : ∀ c ∈ m, a < c.1) : Memory.cell? m a = none := by
  induction m with
  | nil => rfl
  | cons d rest ih =>
    have := h d List.mem_cons_self
    simp only [Memory.cell?]
    rw [if_neg (by omega)]
    exact ih fun c hc => h c (List.mem_cons_of_mem _ hc)

/-- Two lists in canonical form that hold the same written bytes are the same list: equal memories are equal data. -/
theorem Memory.ext_of_wf {size : Nat} : ∀ {m m' : Memory}, Memory.wf size m → Memory.wf size m' →
    (∀ a, Memory.cell? m a = Memory.cell? m' a) → m = m' := by
  intro m
  induction m with
  | nil =>
    intro m' _ _ h
    cases m' with
    | nil => rfl
    | cons d _ => have := h d.1; simp [Memory.cell?] at this
  | cons c rest ih =>
    intro m' hm hm' h
    cases m' with
    | nil => have := h c.1; simp [Memory.cell?] at this
    | cons d rest' =>
      obtain ⟨hc, hr⟩ := List.pairwise_cons.mp hm.1
      obtain ⟨hd, hr'⟩ := List.pairwise_cons.mp hm'.1
      have hkey : c.1 = d.1 := by
        rcases Nat.lt_trichotomy c.1 d.1 with hlt | heq | hgt
        · have h1 := h c.1
          rw [Memory.cell?_eq_none_of_lt (m := d :: rest')] at h1
          · simp [Memory.cell?] at h1
          · intro e he
            rcases List.mem_cons.mp he with rfl | he
            · exact hlt
            · exact Nat.lt_trans hlt (hd e he)
        · exact heq
        · have h1 := h d.1
          rw [Memory.cell?_eq_none_of_lt (m := c :: rest)] at h1
          · simp [Memory.cell?] at h1
          · intro e he
            rcases List.mem_cons.mp he with rfl | he
            · exact hgt
            · exact Nat.lt_trans hgt (hc e he)
      have hval : c.2 = d.2 := by
        have h1 := h c.1
        simpa [Memory.cell?, hkey] using h1
      have htail : rest = rest' := by
        refine ih ⟨hr, fun e he => hm.2 e (List.mem_cons_of_mem _ he)⟩
          ⟨hr', fun e he => hm'.2 e (List.mem_cons_of_mem _ he)⟩ fun a => ?_
        by_cases ha : a = c.1
        · rw [ha, Memory.cell?_eq_none_of_lt hc, hkey, Memory.cell?_eq_none_of_lt hd]
        · have h1 := h a
          simp only [Memory.cell?] at h1
          rwa [if_neg ha, if_neg (hkey ▸ ha)] at h1
      rw [htail, Prod.ext hkey hval]

end Sys2Proof.Machine
end

