-- ==== Sys2Proof/Laws/State.lean ====
section
/-! SUPPORT. One lemma per field per update of State, each true by rfl, so that no proof unfolds a record update. -/

namespace Sys2Proof.Machine

variable (s : State)

@[simp] theorem State.setStatus_status (v : BitVec 12) : (s.setStatus v).status = v := rfl
@[simp] theorem State.setStatus_crcAcc (v : BitVec 12) : (s.setStatus v).crcAcc = s.crcAcc := rfl
@[simp] theorem State.setStatus_crcDin (v : BitVec 12) : (s.setStatus v).crcDin = s.crcDin := rfl
@[simp] theorem State.setStatus_fAddr (v : BitVec 12) : (s.setStatus v).fAddr = s.fAddr := rfl
@[simp] theorem State.setStatus_fCmd (v : BitVec 12) : (s.setStatus v).fCmd = s.fCmd := rfl
@[simp] theorem State.setStatus_pOff (v : BitVec 12) : (s.setStatus v).pOff = s.pOff := rfl
@[simp] theorem State.setStatus_pLen (v : BitVec 12) : (s.setStatus v).pLen = s.pLen := rfl
@[simp] theorem State.setStatus_inLen (v : BitVec 12) : (s.setStatus v).inLen = s.inLen := rfl
@[simp] theorem State.setStatus_outCap (v : BitVec 12) : (s.setStatus v).outCap = s.outCap := rfl
@[simp] theorem State.setStatus_outLen (v : BitVec 12) : (s.setStatus v).outLen = s.outLen := rfl
@[simp] theorem State.setStatus_dAddr (v : BitVec 12) : (s.setStatus v).dAddr = s.dAddr := rfl
@[simp] theorem State.setStatus_dCmd (v : BitVec 12) : (s.setStatus v).dCmd = s.dCmd := rfl
@[simp] theorem State.setStatus_ch0 (v : BitVec 12) : (s.setStatus v).ch0 = s.ch0 := rfl
@[simp] theorem State.setStatus_ch1 (v : BitVec 12) : (s.setStatus v).ch1 = s.ch1 := rfl
@[simp] theorem State.setStatus_ch2 (v : BitVec 12) : (s.setStatus v).ch2 = s.ch2 := rfl
@[simp] theorem State.setStatus_ch3 (v : BitVec 12) : (s.setStatus v).ch3 = s.ch3 := rfl
@[simp] theorem State.setStatus_ibuf (v : BitVec 12) : (s.setStatus v).ibuf = s.ibuf := rfl
@[simp] theorem State.setStatus_obuf (v : BitVec 12) : (s.setStatus v).obuf = s.obuf := rfl
@[simp] theorem State.setStatus_resets (v : BitVec 12) : (s.setStatus v).resets = s.resets := rfl
@[simp] theorem State.setStatus_port (v : BitVec 12) : (s.setStatus v).port = s.port := rfl
@[simp] theorem State.setStatus_reply (v : BitVec 12) : (s.setStatus v).reply = s.reply := rfl

@[simp] theorem State.setCrcAcc_status (v : Half) : (s.setCrcAcc v).status = s.status := rfl
@[simp] theorem State.setCrcAcc_crcAcc (v : Half) : (s.setCrcAcc v).crcAcc = v := rfl
@[simp] theorem State.setCrcAcc_crcDin (v : Half) : (s.setCrcAcc v).crcDin = s.crcDin := rfl
@[simp] theorem State.setCrcAcc_fAddr (v : Half) : (s.setCrcAcc v).fAddr = s.fAddr := rfl
@[simp] theorem State.setCrcAcc_fCmd (v : Half) : (s.setCrcAcc v).fCmd = s.fCmd := rfl
@[simp] theorem State.setCrcAcc_pOff (v : Half) : (s.setCrcAcc v).pOff = s.pOff := rfl
@[simp] theorem State.setCrcAcc_pLen (v : Half) : (s.setCrcAcc v).pLen = s.pLen := rfl
@[simp] theorem State.setCrcAcc_inLen (v : Half) : (s.setCrcAcc v).inLen = s.inLen := rfl
@[simp] theorem State.setCrcAcc_outCap (v : Half) : (s.setCrcAcc v).outCap = s.outCap := rfl
@[simp] theorem State.setCrcAcc_outLen (v : Half) : (s.setCrcAcc v).outLen = s.outLen := rfl
@[simp] theorem State.setCrcAcc_dAddr (v : Half) : (s.setCrcAcc v).dAddr = s.dAddr := rfl
@[simp] theorem State.setCrcAcc_dCmd (v : Half) : (s.setCrcAcc v).dCmd = s.dCmd := rfl
@[simp] theorem State.setCrcAcc_ch0 (v : Half) : (s.setCrcAcc v).ch0 = s.ch0 := rfl
@[simp] theorem State.setCrcAcc_ch1 (v : Half) : (s.setCrcAcc v).ch1 = s.ch1 := rfl
@[simp] theorem State.setCrcAcc_ch2 (v : Half) : (s.setCrcAcc v).ch2 = s.ch2 := rfl
@[simp] theorem State.setCrcAcc_ch3 (v : Half) : (s.setCrcAcc v).ch3 = s.ch3 := rfl
@[simp] theorem State.setCrcAcc_ibuf (v : Half) : (s.setCrcAcc v).ibuf = s.ibuf := rfl
@[simp] theorem State.setCrcAcc_obuf (v : Half) : (s.setCrcAcc v).obuf = s.obuf := rfl
@[simp] theorem State.setCrcAcc_resets (v : Half) : (s.setCrcAcc v).resets = s.resets := rfl
@[simp] theorem State.setCrcAcc_port (v : Half) : (s.setCrcAcc v).port = s.port := rfl
@[simp] theorem State.setCrcAcc_reply (v : Half) : (s.setCrcAcc v).reply = s.reply := rfl

@[simp] theorem State.setView_status (o l : Nat) : (s.setView o l).status = s.status := rfl
@[simp] theorem State.setView_crcAcc (o l : Nat) : (s.setView o l).crcAcc = s.crcAcc := rfl
@[simp] theorem State.setView_crcDin (o l : Nat) : (s.setView o l).crcDin = s.crcDin := rfl
@[simp] theorem State.setView_fAddr (o l : Nat) : (s.setView o l).fAddr = s.fAddr := rfl
@[simp] theorem State.setView_fCmd (o l : Nat) : (s.setView o l).fCmd = s.fCmd := rfl
@[simp] theorem State.setView_pOff (o l : Nat) : (s.setView o l).pOff = BitVec.ofNat 9 o := rfl
@[simp] theorem State.setView_pLen (o l : Nat) : (s.setView o l).pLen = BitVec.ofNat 9 l := rfl
@[simp] theorem State.setView_inLen (o l : Nat) : (s.setView o l).inLen = s.inLen := rfl
@[simp] theorem State.setView_outCap (o l : Nat) : (s.setView o l).outCap = s.outCap := rfl
@[simp] theorem State.setView_outLen (o l : Nat) : (s.setView o l).outLen = s.outLen := rfl
@[simp] theorem State.setView_dAddr (o l : Nat) : (s.setView o l).dAddr = s.dAddr := rfl
@[simp] theorem State.setView_dCmd (o l : Nat) : (s.setView o l).dCmd = s.dCmd := rfl
@[simp] theorem State.setView_ch0 (o l : Nat) : (s.setView o l).ch0 = s.ch0 := rfl
@[simp] theorem State.setView_ch1 (o l : Nat) : (s.setView o l).ch1 = s.ch1 := rfl
@[simp] theorem State.setView_ch2 (o l : Nat) : (s.setView o l).ch2 = s.ch2 := rfl
@[simp] theorem State.setView_ch3 (o l : Nat) : (s.setView o l).ch3 = s.ch3 := rfl
@[simp] theorem State.setView_ibuf (o l : Nat) : (s.setView o l).ibuf = s.ibuf := rfl
@[simp] theorem State.setView_obuf (o l : Nat) : (s.setView o l).obuf = s.obuf := rfl
@[simp] theorem State.setView_resets (o l : Nat) : (s.setView o l).resets = s.resets := rfl
@[simp] theorem State.setView_port (o l : Nat) : (s.setView o l).port = s.port := rfl
@[simp] theorem State.setView_reply (o l : Nat) : (s.setView o l).reply = s.reply := rfl

@[simp] theorem State.setOutLen_status (n : Nat) : (s.setOutLen n).status = s.status := rfl
@[simp] theorem State.setOutLen_crcAcc (n : Nat) : (s.setOutLen n).crcAcc = s.crcAcc := rfl
@[simp] theorem State.setOutLen_crcDin (n : Nat) : (s.setOutLen n).crcDin = s.crcDin := rfl
@[simp] theorem State.setOutLen_fAddr (n : Nat) : (s.setOutLen n).fAddr = s.fAddr := rfl
@[simp] theorem State.setOutLen_fCmd (n : Nat) : (s.setOutLen n).fCmd = s.fCmd := rfl
@[simp] theorem State.setOutLen_pOff (n : Nat) : (s.setOutLen n).pOff = s.pOff := rfl
@[simp] theorem State.setOutLen_pLen (n : Nat) : (s.setOutLen n).pLen = s.pLen := rfl
@[simp] theorem State.setOutLen_inLen (n : Nat) : (s.setOutLen n).inLen = s.inLen := rfl
@[simp] theorem State.setOutLen_outCap (n : Nat) : (s.setOutLen n).outCap = s.outCap := rfl
@[simp] theorem State.setOutLen_outLen (n : Nat) : (s.setOutLen n).outLen = BitVec.ofNat 16 n := rfl
@[simp] theorem State.setOutLen_dAddr (n : Nat) : (s.setOutLen n).dAddr = s.dAddr := rfl
@[simp] theorem State.setOutLen_dCmd (n : Nat) : (s.setOutLen n).dCmd = s.dCmd := rfl
@[simp] theorem State.setOutLen_ch0 (n : Nat) : (s.setOutLen n).ch0 = s.ch0 := rfl
@[simp] theorem State.setOutLen_ch1 (n : Nat) : (s.setOutLen n).ch1 = s.ch1 := rfl
@[simp] theorem State.setOutLen_ch2 (n : Nat) : (s.setOutLen n).ch2 = s.ch2 := rfl
@[simp] theorem State.setOutLen_ch3 (n : Nat) : (s.setOutLen n).ch3 = s.ch3 := rfl
@[simp] theorem State.setOutLen_ibuf (n : Nat) : (s.setOutLen n).ibuf = s.ibuf := rfl
@[simp] theorem State.setOutLen_obuf (n : Nat) : (s.setOutLen n).obuf = s.obuf := rfl
@[simp] theorem State.setOutLen_resets (n : Nat) : (s.setOutLen n).resets = s.resets := rfl
@[simp] theorem State.setOutLen_port (n : Nat) : (s.setOutLen n).port = s.port := rfl
@[simp] theorem State.setOutLen_reply (n : Nat) : (s.setOutLen n).reply = s.reply := rfl

@[simp] theorem State.setDecoded_status (a c : Byte) : (s.setDecoded a c).status = s.status := rfl
@[simp] theorem State.setDecoded_crcAcc (a c : Byte) : (s.setDecoded a c).crcAcc = s.crcAcc := rfl
@[simp] theorem State.setDecoded_crcDin (a c : Byte) : (s.setDecoded a c).crcDin = s.crcDin := rfl
@[simp] theorem State.setDecoded_fAddr (a c : Byte) : (s.setDecoded a c).fAddr = s.fAddr := rfl
@[simp] theorem State.setDecoded_fCmd (a c : Byte) : (s.setDecoded a c).fCmd = s.fCmd := rfl
@[simp] theorem State.setDecoded_pOff (a c : Byte) : (s.setDecoded a c).pOff = s.pOff := rfl
@[simp] theorem State.setDecoded_pLen (a c : Byte) : (s.setDecoded a c).pLen = s.pLen := rfl
@[simp] theorem State.setDecoded_inLen (a c : Byte) : (s.setDecoded a c).inLen = s.inLen := rfl
@[simp] theorem State.setDecoded_outCap (a c : Byte) : (s.setDecoded a c).outCap = s.outCap := rfl
@[simp] theorem State.setDecoded_outLen (a c : Byte) : (s.setDecoded a c).outLen = s.outLen := rfl
@[simp] theorem State.setDecoded_dAddr (a c : Byte) : (s.setDecoded a c).dAddr = a := rfl
@[simp] theorem State.setDecoded_dCmd (a c : Byte) : (s.setDecoded a c).dCmd = c := rfl
@[simp] theorem State.setDecoded_ch0 (a c : Byte) : (s.setDecoded a c).ch0 = s.ch0 := rfl
@[simp] theorem State.setDecoded_ch1 (a c : Byte) : (s.setDecoded a c).ch1 = s.ch1 := rfl
@[simp] theorem State.setDecoded_ch2 (a c : Byte) : (s.setDecoded a c).ch2 = s.ch2 := rfl
@[simp] theorem State.setDecoded_ch3 (a c : Byte) : (s.setDecoded a c).ch3 = s.ch3 := rfl
@[simp] theorem State.setDecoded_ibuf (a c : Byte) : (s.setDecoded a c).ibuf = s.ibuf := rfl
@[simp] theorem State.setDecoded_obuf (a c : Byte) : (s.setDecoded a c).obuf = s.obuf := rfl
@[simp] theorem State.setDecoded_resets (a c : Byte) : (s.setDecoded a c).resets = s.resets := rfl
@[simp] theorem State.setDecoded_port (a c : Byte) : (s.setDecoded a c).port = s.port := rfl
@[simp] theorem State.setDecoded_reply (a c : Byte) : (s.setDecoded a c).reply = s.reply := rfl

@[simp] theorem State.setChannels_status (v0 v1 v2 v3 : Half) : (s.setChannels v0 v1 v2 v3).status = s.status := rfl
@[simp] theorem State.setChannels_crcAcc (v0 v1 v2 v3 : Half) : (s.setChannels v0 v1 v2 v3).crcAcc = s.crcAcc := rfl
@[simp] theorem State.setChannels_crcDin (v0 v1 v2 v3 : Half) : (s.setChannels v0 v1 v2 v3).crcDin = s.crcDin := rfl
@[simp] theorem State.setChannels_fAddr (v0 v1 v2 v3 : Half) : (s.setChannels v0 v1 v2 v3).fAddr = s.fAddr := rfl
@[simp] theorem State.setChannels_fCmd (v0 v1 v2 v3 : Half) : (s.setChannels v0 v1 v2 v3).fCmd = s.fCmd := rfl
@[simp] theorem State.setChannels_pOff (v0 v1 v2 v3 : Half) : (s.setChannels v0 v1 v2 v3).pOff = s.pOff := rfl
@[simp] theorem State.setChannels_pLen (v0 v1 v2 v3 : Half) : (s.setChannels v0 v1 v2 v3).pLen = s.pLen := rfl
@[simp] theorem State.setChannels_inLen (v0 v1 v2 v3 : Half) : (s.setChannels v0 v1 v2 v3).inLen = s.inLen := rfl
@[simp] theorem State.setChannels_outCap (v0 v1 v2 v3 : Half) : (s.setChannels v0 v1 v2 v3).outCap = s.outCap := rfl
@[simp] theorem State.setChannels_outLen (v0 v1 v2 v3 : Half) : (s.setChannels v0 v1 v2 v3).outLen = s.outLen := rfl
@[simp] theorem State.setChannels_dAddr (v0 v1 v2 v3 : Half) : (s.setChannels v0 v1 v2 v3).dAddr = s.dAddr := rfl
@[simp] theorem State.setChannels_dCmd (v0 v1 v2 v3 : Half) : (s.setChannels v0 v1 v2 v3).dCmd = s.dCmd := rfl
@[simp] theorem State.setChannels_ch0 (v0 v1 v2 v3 : Half) : (s.setChannels v0 v1 v2 v3).ch0 = v0 := rfl
@[simp] theorem State.setChannels_ch1 (v0 v1 v2 v3 : Half) : (s.setChannels v0 v1 v2 v3).ch1 = v1 := rfl
@[simp] theorem State.setChannels_ch2 (v0 v1 v2 v3 : Half) : (s.setChannels v0 v1 v2 v3).ch2 = v2 := rfl
@[simp] theorem State.setChannels_ch3 (v0 v1 v2 v3 : Half) : (s.setChannels v0 v1 v2 v3).ch3 = v3 := rfl
@[simp] theorem State.setChannels_ibuf (v0 v1 v2 v3 : Half) : (s.setChannels v0 v1 v2 v3).ibuf = s.ibuf := rfl
@[simp] theorem State.setChannels_obuf (v0 v1 v2 v3 : Half) : (s.setChannels v0 v1 v2 v3).obuf = s.obuf := rfl
@[simp] theorem State.setChannels_resets (v0 v1 v2 v3 : Half) : (s.setChannels v0 v1 v2 v3).resets = s.resets := rfl
@[simp] theorem State.setChannels_port (v0 v1 v2 v3 : Half) : (s.setChannels v0 v1 v2 v3).port = s.port := rfl
@[simp] theorem State.setChannels_reply (v0 v1 v2 v3 : Half) : (s.setChannels v0 v1 v2 v3).reply = s.reply := rfl

@[simp] theorem State.storeIbuf_status (a : Nat) (bs : List Byte) : (s.storeIbuf a bs).status = s.status := rfl
@[simp] theorem State.storeIbuf_crcAcc (a : Nat) (bs : List Byte) : (s.storeIbuf a bs).crcAcc = s.crcAcc := rfl
@[simp] theorem State.storeIbuf_crcDin (a : Nat) (bs : List Byte) : (s.storeIbuf a bs).crcDin = s.crcDin := rfl
@[simp] theorem State.storeIbuf_fAddr (a : Nat) (bs : List Byte) : (s.storeIbuf a bs).fAddr = s.fAddr := rfl
@[simp] theorem State.storeIbuf_fCmd (a : Nat) (bs : List Byte) : (s.storeIbuf a bs).fCmd = s.fCmd := rfl
@[simp] theorem State.storeIbuf_pOff (a : Nat) (bs : List Byte) : (s.storeIbuf a bs).pOff = s.pOff := rfl
@[simp] theorem State.storeIbuf_pLen (a : Nat) (bs : List Byte) : (s.storeIbuf a bs).pLen = s.pLen := rfl
@[simp] theorem State.storeIbuf_inLen (a : Nat) (bs : List Byte) : (s.storeIbuf a bs).inLen = s.inLen := rfl
@[simp] theorem State.storeIbuf_outCap (a : Nat) (bs : List Byte) : (s.storeIbuf a bs).outCap = s.outCap := rfl
@[simp] theorem State.storeIbuf_outLen (a : Nat) (bs : List Byte) : (s.storeIbuf a bs).outLen = s.outLen := rfl
@[simp] theorem State.storeIbuf_dAddr (a : Nat) (bs : List Byte) : (s.storeIbuf a bs).dAddr = s.dAddr := rfl
@[simp] theorem State.storeIbuf_dCmd (a : Nat) (bs : List Byte) : (s.storeIbuf a bs).dCmd = s.dCmd := rfl
@[simp] theorem State.storeIbuf_ch0 (a : Nat) (bs : List Byte) : (s.storeIbuf a bs).ch0 = s.ch0 := rfl
@[simp] theorem State.storeIbuf_ch1 (a : Nat) (bs : List Byte) : (s.storeIbuf a bs).ch1 = s.ch1 := rfl
@[simp] theorem State.storeIbuf_ch2 (a : Nat) (bs : List Byte) : (s.storeIbuf a bs).ch2 = s.ch2 := rfl
@[simp] theorem State.storeIbuf_ch3 (a : Nat) (bs : List Byte) : (s.storeIbuf a bs).ch3 = s.ch3 := rfl
@[simp] theorem State.storeIbuf_ibuf (a : Nat) (bs : List Byte) : (s.storeIbuf a bs).ibuf = Memory.storeBytes s.ibuf a bs := rfl
@[simp] theorem State.storeIbuf_obuf (a : Nat) (bs : List Byte) : (s.storeIbuf a bs).obuf = s.obuf := rfl
@[simp] theorem State.storeIbuf_resets (a : Nat) (bs : List Byte) : (s.storeIbuf a bs).resets = s.resets := rfl
@[simp] theorem State.storeIbuf_port (a : Nat) (bs : List Byte) : (s.storeIbuf a bs).port = s.port := rfl
@[simp] theorem State.storeIbuf_reply (a : Nat) (bs : List Byte) : (s.storeIbuf a bs).reply = s.reply := rfl

@[simp] theorem State.storeObuf_status (a : Nat) (bs : List Byte) : (s.storeObuf a bs).status = s.status := rfl
@[simp] theorem State.storeObuf_crcAcc (a : Nat) (bs : List Byte) : (s.storeObuf a bs).crcAcc = s.crcAcc := rfl
@[simp] theorem State.storeObuf_crcDin (a : Nat) (bs : List Byte) : (s.storeObuf a bs).crcDin = s.crcDin := rfl
@[simp] theorem State.storeObuf_fAddr (a : Nat) (bs : List Byte) : (s.storeObuf a bs).fAddr = s.fAddr := rfl
@[simp] theorem State.storeObuf_fCmd (a : Nat) (bs : List Byte) : (s.storeObuf a bs).fCmd = s.fCmd := rfl
@[simp] theorem State.storeObuf_pOff (a : Nat) (bs : List Byte) : (s.storeObuf a bs).pOff = s.pOff := rfl
@[simp] theorem State.storeObuf_pLen (a : Nat) (bs : List Byte) : (s.storeObuf a bs).pLen = s.pLen := rfl
@[simp] theorem State.storeObuf_inLen (a : Nat) (bs : List Byte) : (s.storeObuf a bs).inLen = s.inLen := rfl
@[simp] theorem State.storeObuf_outCap (a : Nat) (bs : List Byte) : (s.storeObuf a bs).outCap = s.outCap := rfl
@[simp] theorem State.storeObuf_outLen (a : Nat) (bs : List Byte) : (s.storeObuf a bs).outLen = s.outLen := rfl
@[simp] theorem State.storeObuf_dAddr (a : Nat) (bs : List Byte) : (s.storeObuf a bs).dAddr = s.dAddr := rfl
@[simp] theorem State.storeObuf_dCmd (a : Nat) (bs : List Byte) : (s.storeObuf a bs).dCmd = s.dCmd := rfl
@[simp] theorem State.storeObuf_ch0 (a : Nat) (bs : List Byte) : (s.storeObuf a bs).ch0 = s.ch0 := rfl
@[simp] theorem State.storeObuf_ch1 (a : Nat) (bs : List Byte) : (s.storeObuf a bs).ch1 = s.ch1 := rfl
@[simp] theorem State.storeObuf_ch2 (a : Nat) (bs : List Byte) : (s.storeObuf a bs).ch2 = s.ch2 := rfl
@[simp] theorem State.storeObuf_ch3 (a : Nat) (bs : List Byte) : (s.storeObuf a bs).ch3 = s.ch3 := rfl
@[simp] theorem State.storeObuf_ibuf (a : Nat) (bs : List Byte) : (s.storeObuf a bs).ibuf = s.ibuf := rfl
@[simp] theorem State.storeObuf_obuf (a : Nat) (bs : List Byte) : (s.storeObuf a bs).obuf = Memory.storeBytes s.obuf a bs := rfl
@[simp] theorem State.storeObuf_resets (a : Nat) (bs : List Byte) : (s.storeObuf a bs).resets = s.resets := rfl
@[simp] theorem State.storeObuf_port (a : Nat) (bs : List Byte) : (s.storeObuf a bs).port = s.port := rfl
@[simp] theorem State.storeObuf_reply (a : Nat) (bs : List Byte) : (s.storeObuf a bs).reply = s.reply := rfl

@[simp] theorem State.finishOk_status (op : OpField) : (s.finishOk op).status = statusWord op 0 1 := rfl
@[simp] theorem State.finishOk_crcAcc (op : OpField) : (s.finishOk op).crcAcc = s.crcAcc := rfl
@[simp] theorem State.finishOk_crcDin (op : OpField) : (s.finishOk op).crcDin = s.crcDin := rfl
@[simp] theorem State.finishOk_fAddr (op : OpField) : (s.finishOk op).fAddr = s.fAddr := rfl
@[simp] theorem State.finishOk_fCmd (op : OpField) : (s.finishOk op).fCmd = s.fCmd := rfl
@[simp] theorem State.finishOk_pOff (op : OpField) : (s.finishOk op).pOff = s.pOff := rfl
@[simp] theorem State.finishOk_pLen (op : OpField) : (s.finishOk op).pLen = s.pLen := rfl
@[simp] theorem State.finishOk_inLen (op : OpField) : (s.finishOk op).inLen = s.inLen := rfl
@[simp] theorem State.finishOk_outCap (op : OpField) : (s.finishOk op).outCap = s.outCap := rfl
@[simp] theorem State.finishOk_outLen (op : OpField) : (s.finishOk op).outLen = s.outLen := rfl
@[simp] theorem State.finishOk_dAddr (op : OpField) : (s.finishOk op).dAddr = s.dAddr := rfl
@[simp] theorem State.finishOk_dCmd (op : OpField) : (s.finishOk op).dCmd = s.dCmd := rfl
@[simp] theorem State.finishOk_ch0 (op : OpField) : (s.finishOk op).ch0 = s.ch0 := rfl
@[simp] theorem State.finishOk_ch1 (op : OpField) : (s.finishOk op).ch1 = s.ch1 := rfl
@[simp] theorem State.finishOk_ch2 (op : OpField) : (s.finishOk op).ch2 = s.ch2 := rfl
@[simp] theorem State.finishOk_ch3 (op : OpField) : (s.finishOk op).ch3 = s.ch3 := rfl
@[simp] theorem State.finishOk_ibuf (op : OpField) : (s.finishOk op).ibuf = s.ibuf := rfl
@[simp] theorem State.finishOk_obuf (op : OpField) : (s.finishOk op).obuf = s.obuf := rfl
@[simp] theorem State.finishOk_resets (op : OpField) : (s.finishOk op).resets = s.resets := rfl
@[simp] theorem State.finishOk_port (op : OpField) : (s.finishOk op).port = s.port := rfl
@[simp] theorem State.finishOk_reply (op : OpField) : (s.finishOk op).reply = s.reply := rfl

@[simp] theorem State.raiseFail_status (op : OpField) (c : FailCode) : (s.raiseFail op c).status = statusWord op c.code 0 := rfl
@[simp] theorem State.raiseFail_crcAcc (op : OpField) (c : FailCode) : (s.raiseFail op c).crcAcc = s.crcAcc := rfl
@[simp] theorem State.raiseFail_crcDin (op : OpField) (c : FailCode) : (s.raiseFail op c).crcDin = s.crcDin := rfl
@[simp] theorem State.raiseFail_fAddr (op : OpField) (c : FailCode) : (s.raiseFail op c).fAddr = s.fAddr := rfl
@[simp] theorem State.raiseFail_fCmd (op : OpField) (c : FailCode) : (s.raiseFail op c).fCmd = s.fCmd := rfl
@[simp] theorem State.raiseFail_pOff (op : OpField) (c : FailCode) : (s.raiseFail op c).pOff = s.pOff := rfl
@[simp] theorem State.raiseFail_pLen (op : OpField) (c : FailCode) : (s.raiseFail op c).pLen = s.pLen := rfl
@[simp] theorem State.raiseFail_inLen (op : OpField) (c : FailCode) : (s.raiseFail op c).inLen = s.inLen := rfl
@[simp] theorem State.raiseFail_outCap (op : OpField) (c : FailCode) : (s.raiseFail op c).outCap = s.outCap := rfl
@[simp] theorem State.raiseFail_outLen (op : OpField) (c : FailCode) : (s.raiseFail op c).outLen = s.outLen := rfl
@[simp] theorem State.raiseFail_dAddr (op : OpField) (c : FailCode) : (s.raiseFail op c).dAddr = s.dAddr := rfl
@[simp] theorem State.raiseFail_dCmd (op : OpField) (c : FailCode) : (s.raiseFail op c).dCmd = s.dCmd := rfl
@[simp] theorem State.raiseFail_ch0 (op : OpField) (c : FailCode) : (s.raiseFail op c).ch0 = s.ch0 := rfl
@[simp] theorem State.raiseFail_ch1 (op : OpField) (c : FailCode) : (s.raiseFail op c).ch1 = s.ch1 := rfl
@[simp] theorem State.raiseFail_ch2 (op : OpField) (c : FailCode) : (s.raiseFail op c).ch2 = s.ch2 := rfl
@[simp] theorem State.raiseFail_ch3 (op : OpField) (c : FailCode) : (s.raiseFail op c).ch3 = s.ch3 := rfl
@[simp] theorem State.raiseFail_ibuf (op : OpField) (c : FailCode) : (s.raiseFail op c).ibuf = s.ibuf := rfl
@[simp] theorem State.raiseFail_obuf (op : OpField) (c : FailCode) : (s.raiseFail op c).obuf = s.obuf := rfl
@[simp] theorem State.raiseFail_resets (op : OpField) (c : FailCode) : (s.raiseFail op c).resets = s.resets := rfl
@[simp] theorem State.raiseFail_port (op : OpField) (c : FailCode) : (s.raiseFail op c).port = s.port := rfl
@[simp] theorem State.raiseFail_reply (op : OpField) (c : FailCode) : (s.raiseFail op c).reply = s.reply := rfl

@[simp] theorem State.failEncode_status (op : OpField) (c : FailCode) : (s.failEncode op c).status = statusWord op c.code 0 := rfl
@[simp] theorem State.failEncode_crcAcc (op : OpField) (c : FailCode) : (s.failEncode op c).crcAcc = s.crcAcc := rfl
@[simp] theorem State.failEncode_crcDin (op : OpField) (c : FailCode) : (s.failEncode op c).crcDin = s.crcDin := rfl
@[simp] theorem State.failEncode_fAddr (op : OpField) (c : FailCode) : (s.failEncode op c).fAddr = s.fAddr := rfl
@[simp] theorem State.failEncode_fCmd (op : OpField) (c : FailCode) : (s.failEncode op c).fCmd = s.fCmd := rfl
@[simp] theorem State.failEncode_pOff (op : OpField) (c : FailCode) : (s.failEncode op c).pOff = s.pOff := rfl
@[simp] theorem State.failEncode_pLen (op : OpField) (c : FailCode) : (s.failEncode op c).pLen = s.pLen := rfl
@[simp] theorem State.failEncode_inLen (op : OpField) (c : FailCode) : (s.failEncode op c).inLen = s.inLen := rfl
@[simp] theorem State.failEncode_outCap (op : OpField) (c : FailCode) : (s.failEncode op c).outCap = s.outCap := rfl
@[simp] theorem State.failEncode_outLen (op : OpField) (c : FailCode) : (s.failEncode op c).outLen = 0 := rfl
@[simp] theorem State.failEncode_dAddr (op : OpField) (c : FailCode) : (s.failEncode op c).dAddr = s.dAddr := rfl
@[simp] theorem State.failEncode_dCmd (op : OpField) (c : FailCode) : (s.failEncode op c).dCmd = s.dCmd := rfl
@[simp] theorem State.failEncode_ch0 (op : OpField) (c : FailCode) : (s.failEncode op c).ch0 = s.ch0 := rfl
@[simp] theorem State.failEncode_ch1 (op : OpField) (c : FailCode) : (s.failEncode op c).ch1 = s.ch1 := rfl
@[simp] theorem State.failEncode_ch2 (op : OpField) (c : FailCode) : (s.failEncode op c).ch2 = s.ch2 := rfl
@[simp] theorem State.failEncode_ch3 (op : OpField) (c : FailCode) : (s.failEncode op c).ch3 = s.ch3 := rfl
@[simp] theorem State.failEncode_ibuf (op : OpField) (c : FailCode) : (s.failEncode op c).ibuf = s.ibuf := rfl
@[simp] theorem State.failEncode_obuf (op : OpField) (c : FailCode) : (s.failEncode op c).obuf = s.obuf := rfl
@[simp] theorem State.failEncode_resets (op : OpField) (c : FailCode) : (s.failEncode op c).resets = s.resets := rfl
@[simp] theorem State.failEncode_port (op : OpField) (c : FailCode) : (s.failEncode op c).port = s.port := rfl
@[simp] theorem State.failEncode_reply (op : OpField) (c : FailCode) : (s.failEncode op c).reply = s.reply := rfl

@[simp] theorem retire_status (rest : List Input) (ans : Option Word) : (retire rest ans s).status = s.status := rfl
@[simp] theorem retire_crcAcc (rest : List Input) (ans : Option Word) : (retire rest ans s).crcAcc = s.crcAcc := rfl
@[simp] theorem retire_crcDin (rest : List Input) (ans : Option Word) : (retire rest ans s).crcDin = s.crcDin := rfl
@[simp] theorem retire_fAddr (rest : List Input) (ans : Option Word) : (retire rest ans s).fAddr = s.fAddr := rfl
@[simp] theorem retire_fCmd (rest : List Input) (ans : Option Word) : (retire rest ans s).fCmd = s.fCmd := rfl
@[simp] theorem retire_pOff (rest : List Input) (ans : Option Word) : (retire rest ans s).pOff = s.pOff := rfl
@[simp] theorem retire_pLen (rest : List Input) (ans : Option Word) : (retire rest ans s).pLen = s.pLen := rfl
@[simp] theorem retire_inLen (rest : List Input) (ans : Option Word) : (retire rest ans s).inLen = s.inLen := rfl
@[simp] theorem retire_outCap (rest : List Input) (ans : Option Word) : (retire rest ans s).outCap = s.outCap := rfl
@[simp] theorem retire_outLen (rest : List Input) (ans : Option Word) : (retire rest ans s).outLen = s.outLen := rfl
@[simp] theorem retire_dAddr (rest : List Input) (ans : Option Word) : (retire rest ans s).dAddr = s.dAddr := rfl
@[simp] theorem retire_dCmd (rest : List Input) (ans : Option Word) : (retire rest ans s).dCmd = s.dCmd := rfl
@[simp] theorem retire_ch0 (rest : List Input) (ans : Option Word) : (retire rest ans s).ch0 = s.ch0 := rfl
@[simp] theorem retire_ch1 (rest : List Input) (ans : Option Word) : (retire rest ans s).ch1 = s.ch1 := rfl
@[simp] theorem retire_ch2 (rest : List Input) (ans : Option Word) : (retire rest ans s).ch2 = s.ch2 := rfl
@[simp] theorem retire_ch3 (rest : List Input) (ans : Option Word) : (retire rest ans s).ch3 = s.ch3 := rfl
@[simp] theorem retire_ibuf (rest : List Input) (ans : Option Word) : (retire rest ans s).ibuf = s.ibuf := rfl
@[simp] theorem retire_obuf (rest : List Input) (ans : Option Word) : (retire rest ans s).obuf = s.obuf := rfl
@[simp] theorem retire_resets (rest : List Input) (ans : Option Word) : (retire rest ans s).resets = s.resets := rfl
@[simp] theorem retire_port (rest : List Input) (ans : Option Word) : (retire rest ans s).port = rest := rfl
@[simp] theorem retire_reply (rest : List Input) (ans : Option Word) : (retire rest ans s).reply = ans := rfl

@[simp] theorem hostReset_status : (hostReset s).status = State.reset.status := rfl
@[simp] theorem hostReset_crcAcc : (hostReset s).crcAcc = State.reset.crcAcc := rfl
@[simp] theorem hostReset_crcDin : (hostReset s).crcDin = State.reset.crcDin := rfl
@[simp] theorem hostReset_fAddr : (hostReset s).fAddr = State.reset.fAddr := rfl
@[simp] theorem hostReset_fCmd : (hostReset s).fCmd = State.reset.fCmd := rfl
@[simp] theorem hostReset_pOff : (hostReset s).pOff = State.reset.pOff := rfl
@[simp] theorem hostReset_pLen : (hostReset s).pLen = State.reset.pLen := rfl
@[simp] theorem hostReset_inLen : (hostReset s).inLen = State.reset.inLen := rfl
@[simp] theorem hostReset_outCap : (hostReset s).outCap = State.reset.outCap := rfl
@[simp] theorem hostReset_outLen : (hostReset s).outLen = State.reset.outLen := rfl
@[simp] theorem hostReset_dAddr : (hostReset s).dAddr = State.reset.dAddr := rfl
@[simp] theorem hostReset_dCmd : (hostReset s).dCmd = State.reset.dCmd := rfl
@[simp] theorem hostReset_ch0 : (hostReset s).ch0 = State.reset.ch0 := rfl
@[simp] theorem hostReset_ch1 : (hostReset s).ch1 = State.reset.ch1 := rfl
@[simp] theorem hostReset_ch2 : (hostReset s).ch2 = State.reset.ch2 := rfl
@[simp] theorem hostReset_ch3 : (hostReset s).ch3 = State.reset.ch3 := rfl
@[simp] theorem hostReset_ibuf : (hostReset s).ibuf = State.reset.ibuf := rfl
@[simp] theorem hostReset_obuf : (hostReset s).obuf = State.reset.obuf := rfl
@[simp] theorem hostReset_resets : (hostReset s).resets = s.resets + 1 := rfl
@[simp] theorem hostReset_port : (hostReset s).port = s.port := rfl
@[simp] theorem hostReset_reply : (hostReset s).reply = State.reset.reply := rfl

end Sys2Proof.Machine
end

