-- ==== Sys2Proof/Laws/Ops.lean ====
section
/-! SUPPORT. The laws of the shared operations: byte order, STATUS fields, reading buffers after each update. -/

namespace Sys2Proof.Machine

/-! ### Sizes and constants, as numbers -/

@[simp] theorem ibufBytes_eq : Config.ibufBytes = 512 := rfl
@[simp] theorem obufBytes_eq : Config.obufBytes = 512 := rfl
@[simp] theorem hdrOverhead_eq : hdrOverhead = 6 := rfl
@[simp] theorem maxPayload_eq : maxPayload = 255 := rfl
@[simp] theorem maxFrame_eq : maxFrame = 261 := rfl
@[simp] theorem replyLen_eq : replyLen = 8 := rfl
@[simp] theorem addrMin_eq : addrMin = 1 := rfl
@[simp] theorem addrMax_eq : addrMax = 247 := rfl
@[simp] theorem sentinel_eq : sentinel = 0x01#8 := rfl
@[simp] theorem crcInitValue_eq : crcInitValue = 0xFFFF#16 := rfl
@[simp] theorem ibufBase_eq : ibufBase = 512 := rfl
@[simp] theorem obufBase_eq : obufBase = 1024 := rfl

/-- The bounds 00_scope.md R11 sets on the two sizes. -/
theorem buffer_sizes_in_bounds :
    maxFrame ≤ Config.ibufBytes ∧ Config.ibufBytes ≤ 512 ∧ maxFrame ≤ Config.obufBytes ∧ Config.obufBytes ≤ 512 := by
  decide

/-- Different host indices have different system addresses, whatever the base. -/
theorem systemAddress_injective {i j : HostIndex} (h : Config.systemAddress i = Config.systemAddress j) : i = j := by
  unfold Config.systemAddress at h
  exact BitVec.eq_of_toNat_eq (by omega)

/-! ### Byte order -/

@[simp] theorem bytesHalf_lowByte_highByte (v : Half) : bytesHalf (lowByte v) (highByte v) = v := by
  refine BitVec.eq_of_getLsbD_eq fun i hi => ?_
  simp only [bytesHalf, lowByte, highByte, BitVec.getLsbD_append, BitVec.getLsbD_extractLsb']
  split
  · simp_all
  · simp [show i - 8 < 8 by omega, show 8 + (i - 8) = i by omega]

@[simp] theorem lowByte_bytesHalf (lo hi : Byte) : lowByte (bytesHalf lo hi) = lo := by
  refine BitVec.eq_of_getLsbD_eq fun i hi => ?_
  simp only [bytesHalf, lowByte, BitVec.getLsbD_append, BitVec.getLsbD_extractLsb']
  simp [hi]

@[simp] theorem highByte_bytesHalf (lo hi : Byte) : highByte (bytesHalf lo hi) = hi := by
  refine BitVec.eq_of_getLsbD_eq fun i hi => ?_
  simp only [bytesHalf, highByte, BitVec.getLsbD_append, BitVec.getLsbD_extractLsb']
  simp [hi]

theorem bytesHalf_injective {lo hi lo' hi' : Byte} (h : bytesHalf lo hi = bytesHalf lo' hi') : lo = lo' ∧ hi = hi' := by
  constructor
  · simpa using congrArg lowByte h
  · simpa using congrArg highByte h

/-- The spec's `lo OR (hi << 8)` is the two bytes side by side (42_frame_decoder.md R151, R160). -/
theorem bytesHalf_eq_or (lo hi : Byte) : bytesHalf lo hi = lo.setWidth 16 ||| (hi.setWidth 16 <<< 8) := by
  refine BitVec.eq_of_getLsbD_eq fun i h => ?_
  simp only [bytesHalf, BitVec.getLsbD_append, BitVec.getLsbD_or, BitVec.getLsbD_setWidth, BitVec.getLsbD_shiftLeft]
  by_cases hi8 : i < 8
  · simp [hi8, h]
  · simp [hi8, h, BitVec.getLsbD_of_ge lo i (by omega), show i - 8 < 16 by omega]

theorem toNat_bytesHalf (lo hi : Byte) : (bytesHalf lo hi).toNat = lo.toNat + 256 * hi.toNat := by
  have h := lo.isLt
  unfold bytesHalf
  rw [BitVec.toNat_append, Nat.shiftLeft_eq, Nat.mul_comm, ← Nat.two_pow_add_eq_or_of_lt h]
  omega

/-- `MemRead` of two bytes is the 16-bit field they are (00_scope.md R13). -/
theorem memRead_two (buf : Nat → Byte) (a : Nat) : memRead buf a 2 = (bytesHalf (buf a) (buf (a + 1))).toNat := by
  simp [memRead, toNat_bytesHalf]

/-- `MemWrite` of two bytes stores a 16-bit field as it is sent (00_scope.md R13, 20_memory.md R60). -/
theorem memWrite_two (m : Memory) (a : Nat) (v : Half) :
    memWrite m a 2 v.toNat = Memory.storeBytes m a (halfBytes v) := by
  have hl : BitVec.ofNat 8 v.toNat = lowByte v := by
    apply BitVec.eq_of_toNat_eq; simp [lowByte]
  have hh : BitVec.ofNat 8 (v.toNat / 256) = highByte v := by
    apply BitVec.eq_of_toNat_eq; simp [highByte, Nat.shiftRight_eq_div_pow]
  simp only [memWrite, halfBytes, Memory.storeBytes, hl, hh]

/-- `MemWrite` inside the buffer keeps the canonical form. -/
theorem memWrite_wf {size : Nat} (n : Nat) : ∀ {m : Memory} {a v : Nat}, Memory.wf size m → a + n ≤ size →
    Memory.wf size (memWrite m a n v) := by
  induction n with
  | zero => intro m a v h _; exact h
  | succ n ih => intro m a v h ha; exact ih (Memory.store_wf h (by omega)) (by omega)

/-- Both buffers are in canonical form right after reset. -/
theorem reset_buffers_wf :
    Memory.wf Config.ibufBytes State.reset.ibuf ∧ Memory.wf Config.obufBytes State.reset.obuf :=
  ⟨Memory.wf_nil _, Memory.wf_nil _⟩

@[simp] theorem halfBytes_length (v : Half) : (halfBytes v).length = 2 := rfl

/-! ### Runs of bytes -/

@[simp] theorem readBytes_length (buf : Nat → Byte) (a n : Nat) : (readBytes buf a n).length = n := by
  induction n generalizing a with
  | zero => rfl
  | succ n ih => simp [readBytes, ih]

@[simp] theorem readBytes_zero (buf : Nat → Byte) (a : Nat) : readBytes buf a 0 = [] := rfl

theorem readBytes_getElem (buf : Nat → Byte) (a n k : Nat) (h : k < (readBytes buf a n).length) :
    (readBytes buf a n)[k] = buf (a + k) := by
  induction n generalizing a k with
  | zero => simp at h
  | succ n ih =>
    cases k with
    | zero => rfl
    | succ k =>
      simp only [readBytes, List.getElem_cons_succ]
      rw [ih]
      congr 1; omega

theorem readBytes_getElem? (buf : Nat → Byte) (a n k : Nat) :
    (readBytes buf a n)[k]? = if k < n then some (buf (a + k)) else none := by
  split
  · rw [List.getElem?_eq_getElem (by simpa), readBytes_getElem]
  · simp_all

/-- A run of bytes depends on the bytes it names only. -/
theorem readBytes_congr {buf buf' : Nat → Byte} {a n : Nat} (h : ∀ k, k < n → buf (a + k) = buf' (a + k)) :
    readBytes buf a n = readBytes buf' a n := by
  refine List.ext_getElem (by simp) fun k h1 _ => ?_
  rw [readBytes_getElem, readBytes_getElem]
  exact h k (by simpa using h1)

/-- A list is the run of bytes of a buffer exactly when it has the length and the bytes agree one by one. -/
theorem readBytes_eq_iff {buf : Nat → Byte} {a n : Nat} {bs : List Byte} (hn : bs.length = n) :
    readBytes buf a n = bs ↔ ∀ k (h : k < bs.length), buf (a + k) = bs[k] := by
  constructor
  · rintro rfl k h
    rw [readBytes_getElem]
  · intro h
    refine List.ext_getElem (by simp [hn]) fun k h1 h2 => ?_
    rw [readBytes_getElem, h k h2]

theorem readBytes_append (buf : Nat → Byte) (a n k : Nat) :
    readBytes buf a (n + k) = readBytes buf a n ++ readBytes buf (a + n) k := by
  induction n generalizing a with
  | zero => simp
  | succ n ih =>
    rw [show n + 1 + k = (n + k) + 1 by omega]
    simp only [readBytes, ih, List.cons_append]
    rw [show a + 1 + n = a + (n + 1) by omega]

/-! ### STATUS -/

@[simp] theorem statusOk_statusWord (l e : BitVec 4) (k : BitVec 1) : statusOk (statusWord l e k) = k := by
  revert l e k; decide

@[simp] theorem statusErr_statusWord (l e : BitVec 4) (k : BitVec 1) : statusErr (statusWord l e k) = e := by
  revert l e k; decide

@[simp] theorem statusLastop_statusWord (l e : BitVec 4) (k : BitVec 1) : statusLastop (statusWord l e k) = l := by
  revert l e k; decide

@[simp] theorem statusReserved_statusWord (l e : BitVec 4) (k : BitVec 1) : statusReserved (statusWord l e k) = 0 := by
  revert l e k; decide

@[simp] theorem getLsbD_statusWord_zero (l e : BitVec 4) (k : BitVec 1) :
    (statusWord l e k).getLsbD 0 = k.getLsbD 0 := by
  revert l e k; decide

@[simp] theorem getElem_statusWord_zero (l e : BitVec 4) (k : BitVec 1) : (statusWord l e k)[0] = k[0] := by
  revert l e k; decide

/-! ### Reading the buffers after an update -/

variable (s : State)

theorem State.ibufByte_congr {s t : State} (hm : t.ibuf = s.ibuf) (hr : t.resets = s.resets) (a : Nat) :
    t.ibufByte a = s.ibufByte a := by
  simp [State.ibufByte, hm, hr]

theorem State.obufByte_congr {s t : State} (hm : t.obuf = s.obuf) (hr : t.resets = s.resets) (a : Nat) :
    t.obufByte a = s.obufByte a := by
  simp [State.obufByte, hm, hr]

/-- One byte of IBUF after a run of bytes was stored. -/
theorem State.ibufByte_storeIbuf (a : Nat) (bs : List Byte) (x : Nat) :
    (s.storeIbuf a bs).ibufByte x =
      if h : a ≤ x ∧ x < a + bs.length then bs[x - a]'(by omega) else s.ibufByte x := by
  simp only [State.ibufByte, State.storeIbuf_ibuf, State.storeIbuf_resets, Memory.cell?_storeBytes]
  split
  · rw [List.getElem?_eq_getElem (by omega)]; rfl
  · rfl

/-- One byte of OBUF after a run of bytes was stored. -/
theorem State.obufByte_storeObuf (a : Nat) (bs : List Byte) (x : Nat) :
    (s.storeObuf a bs).obufByte x =
      if h : a ≤ x ∧ x < a + bs.length then bs[x - a]'(by omega) else s.obufByte x := by
  simp only [State.obufByte, State.storeObuf_obuf, State.storeObuf_resets, Memory.cell?_storeBytes]
  split
  · rw [List.getElem?_eq_getElem (by omega)]; rfl
  · rfl

theorem State.ibufByte_storeIbuf_of_lt {a x : Nat} {bs : List Byte} (h : x < a) :
    (s.storeIbuf a bs).ibufByte x = s.ibufByte x := by
  rw [State.ibufByte_storeIbuf, dif_neg (by omega)]

theorem State.ibufByte_storeIbuf_of_ge {a x : Nat} {bs : List Byte} (h : a + bs.length ≤ x) :
    (s.storeIbuf a bs).ibufByte x = s.ibufByte x := by
  rw [State.ibufByte_storeIbuf, dif_neg (by omega)]

theorem State.obufByte_storeObuf_of_ge {a x : Nat} {bs : List Byte} (h : a + bs.length ≤ x) :
    (s.storeObuf a bs).obufByte x = s.obufByte x := by
  rw [State.obufByte_storeObuf, dif_neg (by omega)]

/-- The run of bytes just stored reads back. -/
theorem State.readBytes_storeObuf (a : Nat) (bs : List Byte) :
    readBytes (s.storeObuf a bs).obufByte a bs.length = bs := by
  rw [readBytes_eq_iff rfl]
  intro k h
  rw [State.obufByte_storeObuf, dif_pos (by omega)]
  congr 1; omega

theorem State.readBytes_storeIbuf (a : Nat) (bs : List Byte) :
    readBytes (s.storeIbuf a bs).ibufByte a bs.length = bs := by
  rw [readBytes_eq_iff rfl]
  intro k h
  rw [State.ibufByte_storeIbuf, dif_pos (by omega)]
  congr 1; omega

@[simp] theorem State.ibufByte_setStatus (v : BitVec 12) (x : Nat) : (s.setStatus v).ibufByte x = s.ibufByte x := rfl
@[simp] theorem State.obufByte_setStatus (v : BitVec 12) (x : Nat) : (s.setStatus v).obufByte x = s.obufByte x := rfl
@[simp] theorem State.ibufByte_setCrcAcc (v : Half) (x : Nat) : (s.setCrcAcc v).ibufByte x = s.ibufByte x := rfl
@[simp] theorem State.obufByte_setCrcAcc (v : Half) (x : Nat) : (s.setCrcAcc v).obufByte x = s.obufByte x := rfl
@[simp] theorem State.ibufByte_setView (o l : Nat) (x : Nat) : (s.setView o l).ibufByte x = s.ibufByte x := rfl
@[simp] theorem State.obufByte_setView (o l : Nat) (x : Nat) : (s.setView o l).obufByte x = s.obufByte x := rfl
@[simp] theorem State.ibufByte_setOutLen (n : Nat) (x : Nat) : (s.setOutLen n).ibufByte x = s.ibufByte x := rfl
@[simp] theorem State.obufByte_setOutLen (n : Nat) (x : Nat) : (s.setOutLen n).obufByte x = s.obufByte x := rfl
@[simp] theorem State.ibufByte_setDecoded (a c : Byte) (x : Nat) : (s.setDecoded a c).ibufByte x = s.ibufByte x := rfl
@[simp] theorem State.obufByte_setDecoded (a c : Byte) (x : Nat) : (s.setDecoded a c).obufByte x = s.obufByte x := rfl
@[simp] theorem State.ibufByte_setChannels (v0 v1 v2 v3 : Half) (x : Nat) : (s.setChannels v0 v1 v2 v3).ibufByte x = s.ibufByte x := rfl
@[simp] theorem State.obufByte_setChannels (v0 v1 v2 v3 : Half) (x : Nat) : (s.setChannels v0 v1 v2 v3).obufByte x = s.obufByte x := rfl
@[simp] theorem State.ibufByte_finishOk (op : OpField) (x : Nat) : (s.finishOk op).ibufByte x = s.ibufByte x := rfl
@[simp] theorem State.obufByte_finishOk (op : OpField) (x : Nat) : (s.finishOk op).obufByte x = s.obufByte x := rfl
@[simp] theorem State.ibufByte_raiseFail (op : OpField) (c : FailCode) (x : Nat) : (s.raiseFail op c).ibufByte x = s.ibufByte x := rfl
@[simp] theorem State.obufByte_raiseFail (op : OpField) (c : FailCode) (x : Nat) : (s.raiseFail op c).obufByte x = s.obufByte x := rfl
@[simp] theorem State.ibufByte_failEncode (op : OpField) (c : FailCode) (x : Nat) : (s.failEncode op c).ibufByte x = s.ibufByte x := rfl
@[simp] theorem State.obufByte_failEncode (op : OpField) (c : FailCode) (x : Nat) : (s.failEncode op c).obufByte x = s.obufByte x := rfl
@[simp] theorem State.obufByte_storeIbuf (a : Nat) (bs : List Byte) (x : Nat) : (s.storeIbuf a bs).obufByte x = s.obufByte x := rfl
@[simp] theorem State.ibufByte_storeObuf (a : Nat) (bs : List Byte) (x : Nat) : (s.storeObuf a bs).ibufByte x = s.ibufByte x := rfl
@[simp] theorem ibufByte_retire (rest : List Input) (ans : Option Word) (x : Nat) : (retire rest ans s).ibufByte x = s.ibufByte x := rfl
@[simp] theorem obufByte_retire (rest : List Input) (ans : Option Word) (x : Nat) : (retire rest ans s).obufByte x = s.obufByte x := rfl

end Sys2Proof.Machine
end

