-- ==== Sys2Proof/Laws/Frame.lean ====
section
/-! SUPPORT. The laws of the two byte layouts: lengths and bytes, position by position. -/

namespace Sys2Proof.Machine

@[simp] theorem frameBytes_length (a c : Byte) (p : List Byte) : (frameBytes a c p).length = 6 + p.length := by
  simp [frameBytes]; omega

/-- The bytes of a frame, each as an optional entry (30_encoding.md R86). -/
theorem frameBytes_head (a c : Byte) (p : List Byte) :
    (frameBytes a c p)[0]? = some 0x01#8 ∧ (frameBytes a c p)[1]? = some a ∧ (frameBytes a c p)[2]? = some c ∧
      (frameBytes a c p)[3]? = some (BitVec.ofNat 8 p.length) := by
  simp [frameBytes]

theorem frameBytes_payload (a c : Byte) (p : List Byte) {k : Nat} (h : k < p.length) :
    (frameBytes a c p)[4 + k]? = some p[k] := by
  simp only [frameBytes, List.append_assoc]
  rw [List.getElem?_append_right (by simp)]
  rw [List.getElem?_append_left (by simpa using h)]
  simp [h]

theorem frameBytes_crc (a c : Byte) (p : List Byte) :
    (frameBytes a c p)[4 + p.length]? = some (lowByte (frameCrc a c p)) ∧
      (frameBytes a c p)[5 + p.length]? = some (highByte (frameCrc a c p)) := by
  have hlen : ([sentinel, a, c, BitVec.ofNat 8 p.length] ++ p).length = 4 + p.length := by simp; omega
  simp only [frameBytes]
  constructor
  · rw [List.getElem?_append_right (by omega), hlen]; simp [halfBytes]
  · rw [List.getElem?_append_right (by omega), hlen, show 5 + p.length - (4 + p.length) = 1 by omega]; simp [halfBytes]

/-- What the checksum covers, read off the frame: the bytes [1 .. 4 + N) (30_encoding.md R86). -/
theorem frameBytes_eq (a c : Byte) (p : List Byte) :
    frameBytes a c p = 0x01#8 :: (([a, c, BitVec.ofNat 8 p.length] ++ p) ++
      [lowByte (crc16 ([a, c, BitVec.ofNat 8 p.length] ++ p)), highByte (crc16 ([a, c, BitVec.ofNat 8 p.length] ++ p))]) := rfl

@[simp] theorem replyBytes_length (v0 v1 v2 v3 : Half) : (replyBytes v0 v1 v2 v3).length = 8 := rfl

theorem replyBytes_eq (v0 v1 v2 v3 : Half) : replyBytes v0 v1 v2 v3 =
    [lowByte v0, highByte v0, lowByte v1, highByte v1, lowByte v2, highByte v2, lowByte v3, highByte v3] := rfl

end Sys2Proof.Machine
end

