-- ==== Sys2Proof/Laws/Operands.lean ====
section
/-! SUPPORT. The laws of the register file and of the windows: which register or byte a host index names, and what a register write
changes. -/

namespace Sys2Proof.Machine

/-! ### Host indices -/

theorem Reg.index_injective {r r' : Reg} (h : r.index = r'.index) : r = r' := by
  revert h; cases r <;> cases r' <;> decide

@[simp] theorem Reg.ofIndex?_index (r : Reg) : Reg.ofIndex? r.index = some r := by cases r <;> rfl

theorem Reg.mem_all (r : Reg) : r ∈ Reg.all := by cases r <;> decide

theorem Reg.ofIndex?_eq_some_iff {idx : HostIndex} {r : Reg} : Reg.ofIndex? idx = some r ↔ r.index = idx := by
  constructor
  · intro h
    simpa using List.find?_some h
  · rintro rfl; simp

/-- No register stands above index 0x010 (20_memory.md R54). -/
theorem Reg.ofIndex?_eq_none {idx : HostIndex} (h : 0x011 ≤ idx.toNat) : Reg.ofIndex? idx = none := by
  rw [← Option.not_isSome_iff_eq_none]
  intro hs
  obtain ⟨r, hr⟩ := Option.isSome_iff_exists.mp hs
  rw [Reg.ofIndex?_eq_some_iff] at hr
  subst hr
  revert h; cases r <;> decide

theorem Reg.ofIndex?_eq_ctrl_iff {idx : HostIndex} : Reg.ofIndex? idx = some .ctrl ↔ idx = 0x000#12 := by
  rw [Reg.ofIndex?_eq_some_iff, eq_comm]; rfl

theorem ibufIndex?_of_mem {idx : HostIndex} (h1 : 0x200 ≤ idx.toNat) (h2 : idx.toNat ≤ 0x3FF) :
    ibufIndex? idx = some (idx.toNat - 0x200) := by
  unfold ibufIndex?
  rw [if_pos (by simp; omega)]
  simp

theorem ibufIndex?_of_not_mem {idx : HostIndex} (h : idx.toNat < 0x200 ∨ 0x3FF < idx.toNat) : ibufIndex? idx = none := by
  unfold ibufIndex?
  rw [if_neg (by simp; omega)]

theorem obufIndex?_of_mem {idx : HostIndex} (h1 : 0x400 ≤ idx.toNat) (h2 : idx.toNat ≤ 0x5FF) :
    obufIndex? idx = some (idx.toNat - 0x400) := by
  unfold obufIndex?
  rw [if_pos (by simp; omega)]
  simp

theorem obufIndex?_of_not_mem {idx : HostIndex} (h : idx.toNat < 0x400 ∨ 0x5FF < idx.toNat) : obufIndex? idx = none := by
  unfold obufIndex?
  rw [if_neg (by simp; omega)]

/-- An index in the IBUF window names a byte of the buffer. -/
theorem ibufIndex?_lt {idx : HostIndex} {i : Nat} (h : ibufIndex? idx = some i) : i < 512 := by
  unfold ibufIndex? at h
  split at h
  · simp at *; omega
  · cases h

/-! ### Registers -/

variable (s : State)

@[simp] theorem State.ibufByte_writeReg (r : Reg) (d : Word) (x : Nat) :
    (s.writeReg r d).ibufByte x = s.ibufByte x := by cases r <;> rfl

@[simp] theorem State.obufByte_writeReg (r : Reg) (d : Word) (x : Nat) :
    (s.writeReg r d).obufByte x = s.obufByte x := by cases r <;> rfl

@[simp] theorem State.writeReg_port (r : Reg) (d : Word) : (s.writeReg r d).port = s.port := by cases r <;> rfl
@[simp] theorem State.writeReg_reply (r : Reg) (d : Word) : (s.writeReg r d).reply = s.reply := by cases r <;> rfl
@[simp] theorem State.writeReg_resets (r : Reg) (d : Word) : (s.writeReg r d).resets = s.resets := by cases r <;> rfl
@[simp] theorem State.writeReg_ibuf (r : Reg) (d : Word) : (s.writeReg r d).ibuf = s.ibuf := by cases r <;> rfl
@[simp] theorem State.writeReg_obuf (r : Reg) (d : Word) : (s.writeReg r d).obuf = s.obuf := by cases r <;> rfl
@[simp] theorem State.writeReg_status (r : Reg) (d : Word) : (s.writeReg r d).status = s.status := by cases r <;> rfl
@[simp] theorem State.writeReg_crcAcc (r : Reg) (d : Word) : (s.writeReg r d).crcAcc = s.crcAcc := by cases r <;> rfl
@[simp] theorem State.writeReg_outLen (r : Reg) (d : Word) : (s.writeReg r d).outLen = s.outLen := by cases r <;> rfl
@[simp] theorem State.writeReg_dAddr (r : Reg) (d : Word) : (s.writeReg r d).dAddr = s.dAddr := by cases r <;> rfl
@[simp] theorem State.writeReg_dCmd (r : Reg) (d : Word) : (s.writeReg r d).dCmd = s.dCmd := by cases r <;> rfl

/-- A register write leaves every other register as it was. -/
theorem State.readReg_writeReg_ne {r r' : Reg} (h : r' ≠ r) (d : Word) : (s.writeReg r d).readReg r' = s.readReg r' := by
  cases r <;> cases r' <;> first | rfl | exact absurd rfl h

/-- A write of a register the host may not write changes nothing. -/
theorem State.writeReg_of_not_rw {r : Reg} (h : r.access ≠ .rw) (d : Word) : s.writeReg r d = s := by
  cases r <;> first | rfl | exact absurd rfl h

@[simp] theorem State.readReg_storeIbuf (a : Nat) (bs : List Byte) (r : Reg) :
    (s.storeIbuf a bs).readReg r = s.readReg r := by cases r <;> rfl

@[simp] theorem State.readReg_storeObuf (a : Nat) (bs : List Byte) (r : Reg) :
    (s.storeObuf a bs).readReg r = s.readReg r := by cases r <;> rfl

@[simp] theorem State.readReg_retire (rest : List Input) (ans : Option Word) (r : Reg) :
    (retire rest ans s).readReg r = s.readReg r := by cases r <;> rfl

/-- Each register update changes the registers it names only. -/
theorem State.readReg_setStatus {r : Reg} (h : r ≠ .status) (v : BitVec 12) : (s.setStatus v).readReg r = s.readReg r := by
  cases r <;> first | rfl | exact absurd rfl h

theorem State.readReg_setCrcAcc {r : Reg} (h : r ≠ .crcAcc) (v : Half) : (s.setCrcAcc v).readReg r = s.readReg r := by
  cases r <;> first | rfl | exact absurd rfl h

theorem State.readReg_setOutLen {r : Reg} (h : r ≠ .outLen) (n : Nat) : (s.setOutLen n).readReg r = s.readReg r := by
  cases r <;> first | rfl | exact absurd rfl h

theorem State.readReg_setView {r : Reg} (h : r ≠ .pOff) (h' : r ≠ .pLen) (o l : Nat) :
    (s.setView o l).readReg r = s.readReg r := by
  cases r <;> first | rfl | exact absurd rfl h | exact absurd rfl h'

theorem State.readReg_setDecoded {r : Reg} (h : r ≠ .dAddr) (h' : r ≠ .dCmd) (a c : Byte) :
    (s.setDecoded a c).readReg r = s.readReg r := by
  cases r <;> first | rfl | exact absurd rfl h | exact absurd rfl h'

theorem State.readReg_setChannels {r : Reg} (h : r ≠ .ch0 ∧ r ≠ .ch1 ∧ r ≠ .ch2 ∧ r ≠ .ch3) (v0 v1 v2 v3 : Half) :
    (s.setChannels v0 v1 v2 v3).readReg r = s.readReg r := by
  cases r <;> first | rfl | simp at h

end Sys2Proof.Machine
end

