-- ==== Sys2Proof/Laws/Operations.lean ====
section
/-! SUPPORT. What each operation, each host transaction and each step can do, said once: provers cite these inversion lemmas instead
of unfolding the definitions. -/

namespace Sys2Proof.Machine

variable {s t : State}

/-! ### When the checks pass, and with which code they fail -/

/-- An ordered check passes when its first condition does not hold and the rest passes. -/
theorem firstFailure_eq_none {p : Prop} [Decidable p] {c : FailCode} {r : Option FailCode} :
    (if p then some c else r) = none ↔ ¬ p ∧ r = none := by
  by_cases h : p <;> simp [h]

/-- An ordered check reports its first condition's code if that holds, else what the rest reports. -/
theorem firstFailure_eq_some {p : Prop} [Decidable p] {c d : FailCode} {r : Option FailCode} :
    (if p then some c else r) = some d ↔ (p ∧ d = c) ∨ (¬ p ∧ r = some d) := by
  by_cases h : p <;> simp [h, eq_comm]

theorem crcBufCheck_eq_none : crcBufCheck s = none ↔ s.pOff.toNat + s.pLen.toNat ≤ 512 := by
  simp [crcBufCheck, State.viewStart, State.viewLen]

theorem crcBufCheck_eq_some {c : FailCode} :
    crcBufCheck s = some c ↔ 512 < s.pOff.toNat + s.pLen.toNat ∧ c = .range := by
  simp only [crcBufCheck, State.viewStart, State.viewLen, ibufBytes_eq]
  by_cases h : 512 < s.pOff.toNat + s.pLen.toNat <;> simp [h, eq_comm]

theorem encodeCheck_eq_none : encodeCheck s = none ↔
    validAddress s.fAddr ∧ s.pLen.toNat ≤ 255 ∧ s.pOff.toNat + s.pLen.toNat ≤ 512 ∧ 6 + s.pLen.toNat ≤ s.outCap.toNat := by
  simp only [encodeCheck, firstFailure_eq_none]
  simp only [State.viewStart, State.viewLen, ibufBytes_eq, hdrOverhead_eq, maxPayload_eq, not_not, Nat.not_lt, gt_iff_lt,
    and_true]

theorem encodeCheck_eq_some {c : FailCode} : encodeCheck s = some c ↔
    (¬ validAddress s.fAddr ∧ c = .eAddress) ∨
    (validAddress s.fAddr ∧ 255 < s.pLen.toNat ∧ c = .ePlen) ∨
    (validAddress s.fAddr ∧ s.pLen.toNat ≤ 255 ∧ 512 < s.pOff.toNat + s.pLen.toNat ∧ c = .range) ∨
    (validAddress s.fAddr ∧ s.pLen.toNat ≤ 255 ∧ s.pOff.toNat + s.pLen.toNat ≤ 512 ∧
      s.outCap.toNat < 6 + s.pLen.toNat ∧ c = .eCapacity) := by
  simp only [encodeCheck, firstFailure_eq_some]
  simp only [State.viewStart, State.viewLen, ibufBytes_eq, hdrOverhead_eq, maxPayload_eq, not_not, Nat.not_lt, gt_iff_lt,
    reduceCtorEq, and_false, or_false, and_or_left]

theorem decodeCheck_eq_none : decodeCheck s = none ↔
    6 ≤ s.inLen.toNat ∧ s.ibufByte 0 = 0x01#8 ∧ s.declaredLen + 6 = s.inLen.toNat ∧
      s.inboundCrc s.declaredLen = s.ibufHalf (4 + s.declaredLen) ∧ validAddress (s.ibufByte 1) := by
  simp only [decodeCheck, firstFailure_eq_none]
  simp only [hdrOverhead_eq, sentinel_eq, not_not, ne_eq, Nat.not_lt, and_true]

theorem decodeCheck_eq_some {c : FailCode} : decodeCheck s = some c ↔
    (s.inLen.toNat < 6 ∧ c = .dShort) ∨
    (6 ≤ s.inLen.toNat ∧ s.ibufByte 0 ≠ 0x01#8 ∧ c = .dSentinel) ∨
    (6 ≤ s.inLen.toNat ∧ s.ibufByte 0 = 0x01#8 ∧ s.declaredLen + 6 ≠ s.inLen.toNat ∧ c = .dLength) ∨
    (6 ≤ s.inLen.toNat ∧ s.ibufByte 0 = 0x01#8 ∧ s.declaredLen + 6 = s.inLen.toNat ∧
      s.inboundCrc s.declaredLen ≠ s.ibufHalf (4 + s.declaredLen) ∧ c = .dChecksum) ∨
    (6 ≤ s.inLen.toNat ∧ s.ibufByte 0 = 0x01#8 ∧ s.declaredLen + 6 = s.inLen.toNat ∧
      s.inboundCrc s.declaredLen = s.ibufHalf (4 + s.declaredLen) ∧ ¬ validAddress (s.ibufByte 1) ∧ c = .dAddress) := by
  simp only [decodeCheck, firstFailure_eq_some]
  simp only [hdrOverhead_eq, sentinel_eq, not_not, ne_eq, Nat.not_lt, reduceCtorEq, and_false, or_false, and_or_left]

theorem replyUnpackCheck_eq_none : replyUnpackCheck s = none ↔ s.pLen.toNat = 8 ∧ s.pOff.toNat + 8 ≤ 512 := by
  simp only [replyUnpackCheck, firstFailure_eq_none]
  simp only [State.viewStart, State.viewLen, ibufBytes_eq, replyLen_eq, not_not, ne_eq, gt_iff_lt, Nat.not_lt, and_true]

theorem replyUnpackCheck_eq_some {c : FailCode} : replyUnpackCheck s = some c ↔
    (s.pLen.toNat ≠ 8 ∧ c = .rLength) ∨ (s.pLen.toNat = 8 ∧ 512 < s.pOff.toNat + 8 ∧ c = .range) := by
  simp only [replyUnpackCheck, State.viewStart, State.viewLen, ibufBytes_eq, replyLen_eq]
  by_cases h1 : s.pLen.toNat = 8 <;> by_cases h2 : 512 < s.pOff.toNat + 8 <;> simp [h1, h2, eq_comm]

/-! ### What each checked operation can do -/

theorem execCrcBuf_of_none (h : crcBufCheck s = none) :
    execCrcBuf s = .next ((s.setCrcAcc (crc16 s.viewBytes)).finishOk 0x3) := by simp only [execCrcBuf, h]; rfl

theorem execCrcBuf_of_some {c : FailCode} (h : crcBufCheck s = some c) : execCrcBuf s = .next (s.raiseFail 0x3 c) := by
  simp only [execCrcBuf, h]; rfl

theorem execEncode_of_none (h : encodeCheck s = none) :
    execEncode s = .next (((s.storeObuf 0 (frameBytes s.fAddr s.fCmd s.viewBytes)).setOutLen (6 + s.viewLen)).finishOk 0x4) := by
  simp only [execEncode, h]; rfl

theorem execEncode_of_some {c : FailCode} (h : encodeCheck s = some c) : execEncode s = .next (s.failEncode 0x4 c) := by
  simp only [execEncode, h]; rfl

theorem execDecode_of_none (h : decodeCheck s = none) :
    execDecode s = .next (((s.setDecoded (s.ibufByte 1) (s.ibufByte 2)).setView 4 s.declaredLen).finishOk 0x5) := by
  simp only [execDecode, h]; rfl

theorem execDecode_of_some {c : FailCode} (h : decodeCheck s = some c) : execDecode s = .next (s.raiseFail 0x5 c) := by
  simp only [execDecode, h]; rfl

theorem execReplyUnpack_of_none (h : replyUnpackCheck s = none) :
    execReplyUnpack s = .next ((s.setChannels (s.ibufHalf s.viewStart) (s.ibufHalf (s.viewStart + 2))
      (s.ibufHalf (s.viewStart + 4)) (s.ibufHalf (s.viewStart + 6))).finishOk 0x7) := by
  simp only [execReplyUnpack, h]; rfl

theorem execReplyUnpack_of_some {c : FailCode} (h : replyUnpackCheck s = some c) :
    execReplyUnpack s = .next (s.raiseFail 0x7 c) := by simp only [execReplyUnpack, h]; rfl

/-- Everything an operation can do, operation by operation: what its next state is when its checks pass, and when one fails. -/
theorem exec_cases {i : Instr} (h : exec i s = .next t) :
    (i = .nop ∧ t = s) ∨
    (i = .crcInit ∧ t = (s.setCrcAcc 0xFFFF).finishOk 0x1) ∨
    (i = .crcByte ∧ t = (s.setCrcAcc (crcStep s.crcAcc s.crcDin)).finishOk 0x2) ∨
    (i = .crcBuf ∧ crcBufCheck s = none ∧ t = (s.setCrcAcc (crc16 s.viewBytes)).finishOk 0x3) ∨
    (i = .crcBuf ∧ ∃ c, crcBufCheck s = some c ∧ t = s.raiseFail 0x3 c) ∨
    (i = .encode ∧ encodeCheck s = none ∧
      t = ((s.storeObuf 0 (frameBytes s.fAddr s.fCmd s.viewBytes)).setOutLen (6 + s.viewLen)).finishOk 0x4) ∨
    (i = .encode ∧ ∃ c, encodeCheck s = some c ∧ t = s.failEncode 0x4 c) ∨
    (i = .decode ∧ decodeCheck s = none ∧
      t = ((s.setDecoded (s.ibufByte 1) (s.ibufByte 2)).setView 4 s.declaredLen).finishOk 0x5) ∨
    (i = .decode ∧ ∃ c, decodeCheck s = some c ∧ t = s.raiseFail 0x5 c) ∨
    (i = .replyPack ∧ t = ((s.storeIbuf 0 (replyBytes s.ch0 s.ch1 s.ch2 s.ch3)).setView 0 8).finishOk 0x6) ∨
    (i = .replyUnpack ∧ replyUnpackCheck s = none ∧
      t = (s.setChannels (s.ibufHalf s.viewStart) (s.ibufHalf (s.viewStart + 2)) (s.ibufHalf (s.viewStart + 4))
        (s.ibufHalf (s.viewStart + 6))).finishOk 0x7) ∨
    (i = .replyUnpack ∧ ∃ c, replyUnpackCheck s = some c ∧ t = s.raiseFail 0x7 c) ∨
    (8 ≤ i.opcode.toNat ∧ t = s.raiseFail i.opcode .illegalOp) := by
  have inj : ∀ {a b : State}, (Host.Outcome.next a : Host.Outcome State Fault Refusal) = .next b → b = a := by
    intro a b e; injection e with e; exact e.symm
  cases i
  case nop => exact .inl ⟨rfl, inj h⟩
  case crcInit => exact .inr (.inl ⟨rfl, inj h⟩)
  case crcByte => exact .inr (.inr (.inl ⟨rfl, inj h⟩))
  case crcBuf =>
    cases hc : crcBufCheck s with
    | none => exact .inr (.inr (.inr (.inl ⟨rfl, rfl, inj ((execCrcBuf_of_none hc).symm.trans h)⟩)))
    | some c => exact .inr (.inr (.inr (.inr (.inl ⟨rfl, c, rfl, inj ((execCrcBuf_of_some hc).symm.trans h)⟩))))
  case encode =>
    cases hc : encodeCheck s with
    | none => exact .inr (.inr (.inr (.inr (.inr (.inl ⟨rfl, rfl, inj ((execEncode_of_none hc).symm.trans h)⟩)))))
    | some c =>
      exact .inr (.inr (.inr (.inr (.inr (.inr (.inl ⟨rfl, c, rfl, inj ((execEncode_of_some hc).symm.trans h)⟩))))))
  case decode =>
    cases hc : decodeCheck s with
    | none =>
      exact .inr (.inr (.inr (.inr (.inr (.inr (.inr (.inl
        ⟨rfl, rfl, inj ((execDecode_of_none hc).symm.trans h)⟩)))))))
    | some c =>
      exact .inr (.inr (.inr (.inr (.inr (.inr (.inr (.inr (.inl
        ⟨rfl, c, rfl, inj ((execDecode_of_some hc).symm.trans h)⟩))))))))
  case replyPack => exact .inr (.inr (.inr (.inr (.inr (.inr (.inr (.inr (.inr (.inl ⟨rfl, inj h⟩)))))))))
  case replyUnpack =>
    cases hc : replyUnpackCheck s with
    | none =>
      exact .inr (.inr (.inr (.inr (.inr (.inr (.inr (.inr (.inr (.inr (.inl
        ⟨rfl, rfl, inj ((execReplyUnpack_of_none hc).symm.trans h)⟩))))))))))
    | some c =>
      exact .inr (.inr (.inr (.inr (.inr (.inr (.inr (.inr (.inr (.inr (.inr (.inl
        ⟨rfl, c, rfl, inj ((execReplyUnpack_of_some hc).symm.trans h)⟩)))))))))))
  all_goals
    exact .inr (.inr (.inr (.inr (.inr (.inr (.inr (.inr (.inr (.inr (.inr (.inr ⟨by decide, inj h⟩)))))))))))

/-! ### What a host transaction and a step can do -/

/-- Reading at a register's index reads that register. -/
@[simp] theorem regRead_index (r : Reg) : regRead s r.index = s.readReg r := by
  simp only [regRead, Reg.ofIndex?_index]

/-- Writing a register leaves every other index reading as before. -/
theorem regRead_writeReg_ne {r : Reg} {idx : HostIndex} (h : idx ≠ r.index) (data : Word) :
    regRead (s.writeReg r data) idx = regRead s idx := by
  unfold regRead
  cases hr : Reg.ofIndex? idx with
  | some r' =>
    have : r' ≠ r := by rintro rfl; exact h (Reg.ofIndex?_eq_some_iff.mp hr).symm
    exact State.readReg_writeReg_ne s this data
  | none => simp only [State.ibufByte_writeReg, State.obufByte_writeReg]

/-- Writing a register that the host may write answers the state with that register written. -/
theorem regWrite_index {r : Reg} (h : r ≠ .ctrl) (data : Word) :
    regWrite s r.index data = .next (s.writeReg r data) := by
  unfold regWrite
  rw [Reg.ofIndex?_index]
  cases r <;> first | rfl | exact absurd rfl h

theorem regWrite_ctrl (data : Word) : regWrite s 0x000#12 data = exec (decode data) s := rfl

/-- Everything RegWrite can do: run an operation, write a register, store a byte of IBUF, or nothing. -/
theorem regWrite_cases {idx : HostIndex} {data : Word} (h : regWrite s idx data = .next t) :
    (idx = 0x000#12 ∧ exec (decode data) s = .next t) ∨
    (∃ r, r.index = idx ∧ r ≠ .ctrl ∧ t = s.writeReg r data) ∨
    (∃ i, Reg.ofIndex? idx = none ∧ ibufIndex? idx = some i ∧ t = s.storeIbuf i [data.setWidth 8]) ∨
    (Reg.ofIndex? idx = none ∧ ibufIndex? idx = none ∧ t = s) := by
  unfold regWrite at h
  split at h
  · rename_i h0
    exact .inl ⟨Reg.ofIndex?_eq_ctrl_iff.mp h0, h⟩
  · rename_i r h0 h1
    injection h with h
    exact .inr (.inl ⟨r, Reg.ofIndex?_eq_some_iff.mp h1, fun e => h0 e, h.symm⟩)
  · rename_i h0
    split at h
    · rename_i i hi
      injection h with h
      exact .inr (.inr (.inl ⟨i, h0, hi, h.symm⟩))
    · rename_i hi
      injection h with h
      exact .inr (.inr (.inr ⟨h0, hi, h.symm⟩))

/-- Everything a step can do: nothing when no input is pending, else serve the oldest one and retire it. -/
theorem step_cases (h : step s = .next t) :
    (s.port = [] ∧ t = s) ∨
    ∃ e rest s', s.port = e :: rest ∧ serve s e = .next s' ∧ t = retire rest (answer s e) s' := by
  unfold step at h
  split at h
  · rename_i h0
    injection h with h
    exact .inl ⟨h0, h.symm⟩
  · rename_i e rest h0
    split at h
    · rename_i s' hs
      injection h with h
      exact .inr ⟨e, rest, s', h0, hs, h.symm⟩
    · cases h
    · cases h

/-- A step when the served input answers a next state. -/
theorem step_of_serve {e : Input} {rest : List Input} {s' : State} (hp : s.port = e :: rest) (h : serve s e = .next s') :
    step s = .next (retire rest (answer s e) s') := by
  unfold step
  rw [hp]
  simp only [h]

/-- A run of one step more is the step, then the run. -/
theorem run_succ_of_step {n : Nat} (h : step s = .next t) :
    Host.Core.run Sys2Proof.core (n + 1) s = Host.Core.run Sys2Proof.core n t := by
  have h' : Sys2Proof.core.step s = .next t := h
  simp only [Host.Core.run]
  rw [h']

theorem withFetchWord_port (nbits w : Nat) :
    (s.withFetchWord nbits w).port = .regWrite 0x000#12 (BitVec.ofNat 32 (w % 2 ^ nbits)) :: s.port := rfl

end Sys2Proof.Machine
end

