-- ==== Sys2Proof/Laws/PerInstr.lean ====
section
/-! SUPPORT. Facts of each operation's command word, one lemma per constructor. -/

namespace Sys2Proof.Laws

/-- The encoding of an operation has its code in OP and 0 in the ignored bits (30_encoding.md R80, R91), and the operation is
well formed. -/
def EncodedWord.Statement (i : Instr) : Prop :=
  opField (encode i) = i.opcode ∧ (encode i).toNat = i.opcode.toNat ∧ i.wellFormed = true

theorem EncodedWord.nop : EncodedWord.Statement .nop := by unfold EncodedWord.Statement; decide
theorem EncodedWord.crcInit : EncodedWord.Statement .crcInit := by unfold EncodedWord.Statement; decide
theorem EncodedWord.crcByte : EncodedWord.Statement .crcByte := by unfold EncodedWord.Statement; decide
theorem EncodedWord.crcBuf : EncodedWord.Statement .crcBuf := by unfold EncodedWord.Statement; decide
theorem EncodedWord.encode : EncodedWord.Statement .encode := by unfold EncodedWord.Statement; decide
theorem EncodedWord.decode : EncodedWord.Statement .decode := by unfold EncodedWord.Statement; decide
theorem EncodedWord.replyPack : EncodedWord.Statement .replyPack := by unfold EncodedWord.Statement; decide
theorem EncodedWord.replyUnpack : EncodedWord.Statement .replyUnpack := by unfold EncodedWord.Statement; decide
theorem EncodedWord.reserved8 : EncodedWord.Statement .reserved8 := by unfold EncodedWord.Statement; decide
theorem EncodedWord.reserved9 : EncodedWord.Statement .reserved9 := by unfold EncodedWord.Statement; decide
theorem EncodedWord.reservedA : EncodedWord.Statement .reservedA := by unfold EncodedWord.Statement; decide
theorem EncodedWord.reservedB : EncodedWord.Statement .reservedB := by unfold EncodedWord.Statement; decide
theorem EncodedWord.reservedC : EncodedWord.Statement .reservedC := by unfold EncodedWord.Statement; decide
theorem EncodedWord.reservedD : EncodedWord.Statement .reservedD := by unfold EncodedWord.Statement; decide
theorem EncodedWord.reservedE : EncodedWord.Statement .reservedE := by unfold EncodedWord.Statement; decide
theorem EncodedWord.reservedF : EncodedWord.Statement .reservedF := by unfold EncodedWord.Statement; decide

end Sys2Proof.Laws
end

