-- ==== Sys2Proof/Tests/Slice0.lean ====
section
/-! SUPPORT. The model's own tests: decoding, ill-formed statements, one step of each operation on the vectors of
95_test_vectors.md, and a witness for the hypotheses of each statement, clause by clause. -/

namespace Sys2Proof.Tests

open Sys2Proof.Machine

-- Many kernel evaluations at once would each hold a thread; the tests are checked one after another.
set_option Elab.async false

/-! ### Helpers -/

/-- The result of one operation, State.reset if it gives none. -/
def after (i : Instr) (s : State) : State :=
  match exec i s with
  | .next t => t
  | .refused _ => .reset

/-- The operation answers a next state. -/
def answers (i : Instr) (s : State) : Bool :=
  match exec i s with
  | .next _ => true
  | .refused _ => false

theorem exec_after {i : Instr} {s : State} (h : answers i s = true) : exec i s = .next (after i s) := by
  unfold answers at h
  unfold after
  split at h
  · rename_i t e
    rw [e]
  · cases h

/-- State.reset with bytes in IBUF from an index on, and a view of them. -/
def withView (off : Nat) (bs : List Byte) : State := (State.reset.storeIbuf off bs).setView off bs.length

/-- State.reset with an inbound frame in IBUF and a given IN_LEN. -/
def withFrame (bs : List Byte) (len : Nat) : State := { State.reset.storeIbuf 0 bs with inLen := BitVec.ofNat 16 len }

/-- State.reset with the operands of ENCODE. -/
def withFields (addr cmd : Byte) (off len cap : Nat) (bs : List Byte) : State :=
  { (State.reset.storeIbuf off bs).setView off len with fAddr := addr, fCmd := cmd, outCap := BitVec.ofNat 16 cap }

/-- A state with inputs pending. -/
def pending (s : State) (inputs : List Input) : State := { s with port := inputs }

/-- The POLL frame to node 3 (S4). -/
def pollFrame : List Byte := [0x01, 0x03, 0x01, 0x00, 0x80, 0x50]

/-- The REPLY frame of node 3 (S5). -/
def replyFrame : List Byte := [0x01, 0x03, 0x02, 0x08, 0xEB, 0x00, 0xC6, 0x00, 0xFF, 0x7F, 0xFF, 0x7F, 0x90, 0xEB]

/-- State after V-ENC-1: OUT_LEN = 6, OBUF[0 .. 6) the POLL frame. -/
def encoded : State := after .encode (withFields 3 1 0 0 6 [])

/-! ### Decoding: a word for each row of the table, written from its pattern `xxxx…oooo`, some with ignored bits set -/

theorem test_decode_nop : decode 0b11111111111111111111111111110000#32 = .nop := by decide
theorem test_decode_crcInit : decode 0b11111111111111111111111111110001#32 = .crcInit := by decide
theorem test_decode_crcByte : decode 0b00000000000000000000000000000010#32 = .crcByte := by decide
theorem test_decode_crcBuf : decode 0b00000000000000000000000000000011#32 = .crcBuf := by decide
theorem test_decode_encode : decode 0b00000000000000000000000000000100#32 = .encode := by decide
theorem test_decode_decode : decode 0b10000000000000000000000000010101#32 = .decode := by decide
theorem test_decode_replyPack : decode 0b00000000000000000000000000000110#32 = .replyPack := by decide
theorem test_decode_replyUnpack : decode 0b00000000000000000000000000000111#32 = .replyUnpack := by decide
theorem test_decode_reserved8 : decode 0b00000000000000000000000000001000#32 = .reserved8 := by decide
theorem test_decode_reserved9 : decode 0b00000000000000000000000000001001#32 = .reserved9 := by decide
theorem test_decode_reservedA : decode 0b00000000000000000000000000001010#32 = .reservedA := by decide
theorem test_decode_reservedB : decode 0b00000000000000000000000000001011#32 = .reservedB := by decide
theorem test_decode_reservedC : decode 0b00000000000000000000000000001100#32 = .reservedC := by decide
theorem test_decode_reservedD : decode 0b00000000000000000000000000001101#32 = .reservedD := by decide
theorem test_decode_reservedE : decode 0b00000000000000000000000000001110#32 = .reservedE := by decide
theorem test_decode_reservedF : decode 0b00000000000000000000000000001111#32 = .reservedF := by decide

theorem test_decodeTableWord : decodeTableWord 32 5 = some .decode ∧ decodeTableWord 8 0x2C = some .reservedC ∧
    decodeTableWord 40 5 = none := by decide

/-- The words `op NAME` writes (R91; P1, P2, P4). -/
theorem test_encode_words : encode .encode = 0x00000004#32 ∧ encode .crcInit = 0x00000001#32 ∧
    encode .replyUnpack = 0x00000007#32 := by decide

/-! ### Well-formedness: each check refuses an ill-formed term and accepts the boundary -/

theorem test_wf_wbIbuf : (Stmt.wbIbuf 512 0xAA).wellFormed = false ∧ (Stmt.wbIbuf 511 0xAA).wellFormed = true := by decide
theorem test_wf_rbIbuf : (Stmt.rbIbuf 512).wellFormed = false ∧ (Stmt.rbIbuf 511).wellFormed = true := by decide
theorem test_wf_rbObuf : (Stmt.rbObuf 512).wellFormed = false ∧ (Stmt.rbObuf 511).wellFormed = true := by decide

/-! ### Operations, on the vectors of 95_test_vectors.md -/

/-- S2, V-CRC-10. -/
theorem test_crc16_examples : crc16 [0x03, 0x01, 0x00] = 0x5080 ∧
    crc16 [0x31, 0x32, 0x33, 0x34, 0x35, 0x36, 0x37, 0x38, 0x39] = 0x4B37 := by decide +kernel

/-- V-CRC-12, V-CRC-13. -/
theorem test_crcStep_examples : crcStep 0x0000 0x01 = 0xC0C1 ∧ crcStep 0xC001 0x00 = 0xC001 := by decide +kernel

/-- V-CT-1. -/
theorem test_nop : after .nop { State.reset with status := 0x540 } = { State.reset with status := 0x540 } := by decide

/-- V-CRC-20. -/
theorem test_crcInit : after .crcInit { State.reset with crcAcc := 0x5080 } =
    { State.reset with crcAcc := 0xFFFF, status := 0x101 } := by decide

/-- V-CRC-14. -/
theorem test_crcByte : after .crcByte { State.reset with crcDin := 0x03 } =
    { State.reset with crcDin := 0x03, crcAcc := 0x41FF, status := 0x201 } := by decide +kernel

/-- V-CRC-16. -/
theorem test_crcBuf : (after .crcBuf (withView 0 [0x03, 0x01, 0x00])).crcAcc = 0x5080 ∧
    (after .crcBuf (withView 0 [0x03, 0x01, 0x00])).status = 0x301 := by decide +kernel

/-- V-CRC-18. -/
theorem test_crcBuf_range : after .crcBuf { State.reset with pOff := 2, pLen := 511, crcAcc := 0x1234 } =
    { State.reset with pOff := 2, pLen := 511, crcAcc := 0x1234, status := 0x390 } := by decide +kernel

/-- V-ENC-2. -/
theorem test_encode : let t := after .encode (withFields 3 2 0 8 14 [0xEB, 0x00, 0xC6, 0x00, 0xFF, 0x7F, 0xFF, 0x7F])
    t.status = 0x401 ∧ t.outLen = 14 ∧ readBytes t.obufByte 0 14 = replyFrame := by decide +kernel

/-- V-ENC-16: RANGE comes before E_CAPACITY. -/
theorem test_encode_range : let t := after .encode { withFields 3 1 300 255 5 [] with outLen := 9 }
    t.status = 0x490 ∧ t.outLen = 0 ∧ t.obuf = [] := by decide +kernel

/-- V-DEC-2. -/
theorem test_decode_reply : let t := after .decode (withFrame replyFrame 14)
    t.status = 0x501 ∧ t.dAddr = 3 ∧ t.dCmd = 2 ∧ t.pOff = 4 ∧ t.pLen = 8 := by decide +kernel

/-- V-DEC-12: D_CHECKSUM comes before D_ADDRESS. -/
theorem test_decode_checksum_first : (after .decode (withFrame [0x01, 0x00, 0x01, 0x00, 0x80, 0x50] 6)).status = 0x540 ∧
    (after .decode (withFrame [0x01, 0x00, 0x01, 0x00, 0x70, 0x50] 6)).status = 0x550 := by decide +kernel

/-- V-RP-2. -/
theorem test_replyPack :
    let t := after .replyPack { State.reset with ch0 := 0xFF9C, ch1 := 0, ch2 := 0xFFFF, ch3 := 0x8000, pOff := 9 }
    readBytes t.ibufByte 0 8 = [0x9C, 0xFF, 0x00, 0x00, 0xFF, 0xFF, 0x00, 0x80] ∧ t.pOff = 0 ∧ t.pLen = 8 ∧
      t.status = 0x601 := by decide +kernel

/-- V-RU-1. -/
theorem test_replyUnpack : let t := after .replyUnpack (withView 0 [0x9C, 0xFF, 0x00, 0x80, 0xFF, 0x7F, 0x01, 0x00])
    t.ch0 = 0xFF9C ∧ t.ch1 = 0x8000 ∧ t.ch2 = 0x7FFF ∧ t.ch3 = 0x0001 ∧ t.status = 0x701 := by decide +kernel

/-- V-RU-6: R_LENGTH comes before RANGE. -/
theorem test_replyUnpack_length : after .replyUnpack { State.reset with pOff := 505, pLen := 9 } =
    { State.reset with pOff := 505, pLen := 9, status := 0x7A0 } := by decide +kernel

/-- V-CT-3, V-CT-4, and the codes between. -/
theorem test_reserved : [Instr.reserved8, .reserved9, .reservedA, .reservedB, .reservedC, .reservedD, .reservedE,
    .reservedF].map (fun i => after i State.reset) =
    [0x8B0, 0x9B0, 0xAB0, 0xBB0, 0xCB0, 0xDB0, 0xEB0, 0xFB0].map (fun st => { State.reset with status := st }) := by decide

/-! ### The host port and the step -/

/-- V-HP-1, V-HP-2, V-HP-9. -/
theorem test_regRead : let s := { State.reset with status := 0x540, ch0 := 0xFF9C }
    regRead s 0x000 = 0 ∧ regRead s 0x00D = 0x0000FF9C ∧ regRead s 0x700 = 0 := by decide +kernel

/-- V-HP-3, V-HP-4. -/
theorem test_regWrite_widths : step (pending State.reset [.regWrite 0x004 0x12345603]) = .next { State.reset with fAddr := 3 } ∧
    step (pending State.reset [.regWrite 0x006 0x000003FF]) = .next { State.reset with pOff := 0x1FF } := ⟨rfl, rfl⟩

/-- V-HP-5, V-HP-6, V-HP-7: writes that are ignored. -/
theorem test_regWrite_ignored : regWrite encoded 0x001 0 = .next encoded ∧ regWrite encoded 0x123 0xFFFFFFFF = .next encoded ∧
    regWrite encoded 0x400 0x000000AA = .next encoded ∧ regRead encoded 0x400 = 1 := ⟨rfl, rfl, rfl, by decide +kernel⟩

/-- V-HP-8. -/
theorem test_regWrite_ibuf : regWrite State.reset 0x205 0x000001AB = .next { State.reset with ibuf := [(5, 0xAB)] } := rfl

/-- A read answers the host and changes nothing of the block (R50, R52). -/
theorem test_step_read : step (pending State.reset [.regRead 0x002, .reset]) =
    .next { State.reset with port := [.reset], reply := some 0x0000FFFF } := rfl

/-- A second reset (R230, R231; log entries 4 and 7). -/
theorem test_step_reset : step (pending encoded [.reset, .regRead 0x001]) =
    .next { State.reset with resets := 1, port := [.regRead 0x001] } := rfl

/-- The first step after reset runs the command word placed with withFetchWord (log entry 1). -/
theorem test_withFetchWord : step (State.reset.withFetchWord 32 0xFFFFFFF1) = .next { State.reset with status := 0x101 } ∧
    step (State.reset.withFetchWord 32 0xC) = .next { State.reset with status := 0xCB0 } := ⟨rfl, rfl⟩

/-- The transactions of `crcfeed 0x03`, `loadpl 16: 03 01 00` and the end of `loadframe` (R92; P2, P4). -/
theorem test_host_notation : (crcfeed 0x03).map Stmt.input = [.regWrite 0x003 3, .regWrite 0x000 2] ∧
    (loadpl 16 [0x03, 0x01, 0x00]).map Stmt.input =
      [.regWrite 0x210 3, .regWrite 0x211 1, .regWrite 0x212 0, .regWrite 0x006 0x10, .regWrite 0x007 3] ∧
    (loadframe pollFrame).map Stmt.input = [.regWrite 0x200 0x01, .regWrite 0x201 0x03, .regWrite 0x202 0x01,
      .regWrite 0x203 0x00, .regWrite 0x204 0x80, .regWrite 0x205 0x50, .regWrite 0x008 6] := by decide

/-! ### Witnesses: the host port and the step -/

theorem witness_OnlyOpFieldMatters : ∀ k, k < 4 → (0x00000003#32).getLsbD k = (0xFFFFFFF3#32).getLsbD k := by decide

theorem witness_StepRunsTheCommand :
    let s := pending (withFrame pollFrame 6) [.regWrite 0x000 0xFFFFFFF5, .regRead 0x001]
    s.port = .regWrite 0x000#12 0xFFFFFFF5 :: [.regRead 0x001] ∧
      exec (decode 0xFFFFFFF5) s = .next (after .decode s) := ⟨rfl, exec_after (by decide +kernel)⟩

theorem witness_StepServesTheOtherInputs_write : ∀ idx ∈ [0x001#12, 0x010#12, 0x011#12, 0x200#12, 0x3FF#12, 0xFFF#12],
    idx ≠ 0x000#12 ∧ ∃ t, (pending encoded [.regWrite idx 0x55]).port = .regWrite idx 0x55 :: [] ∧
      regWrite (pending encoded [.regWrite idx 0x55]) idx 0x55 = .next t := by
  intro idx h
  fin_cases h <;> exact ⟨by decide, _, rfl, rfl⟩

theorem witness_StepServesTheOtherInputs_read : (pending encoded [.regRead 0x400]).port = .regRead 0x400 :: [] ∧
    encoded.port = [] := ⟨rfl, by decide +kernel⟩

theorem witness_TransactionsTakeEffectInIssueOrder_one :
    (let s := pending encoded [.regWrite 0x003 0x03, .reset]
     s.port = .regWrite 0x003 0x03 :: [.reset] ∧ regWrite s 0x003 0x03 = .next { s with crcDin := 3 }) ∧
    (pending encoded [.regRead 0x00A]).port = .regRead 0x00A :: [] := ⟨⟨rfl, rfl⟩, rfl⟩

theorem witness_TransactionsTakeEffectInIssueOrder :
    let s := { State.reset with crcAcc := 0x5080 }
    Host.Core.run Sys2Proof.core [Input.regWrite 0x003 0x03, .regWrite 0x000 1].length
        { s with port := [.regWrite 0x003 0x03, .regWrite 0x000 1] } =
      .next { s with crcDin := 3, crcAcc := 0xFFFF, status := 0x101 } := rfl

/-- The classes of R52 at both ends of each range, on a state with STATUS = 0x401 and IBUF[0], IBUF[511], OBUF[511] written. -/
theorem witness_RegReadByClass :
    let s := { encoded with ibuf := [(0, 0x12), (511, 0x34)], obuf := encoded.obuf ++ [(511, 0x56)] }
    ((0x200 ≤ (0x200#12).toNat ∧ (0x200#12).toNat ≤ 0x3FF) ∧ regRead s 0x200 = 0x12) ∧
    ((0x200 ≤ (0x3FF#12).toNat ∧ (0x3FF#12).toNat ≤ 0x3FF) ∧ regRead s 0x3FF = 0x34) ∧
    ((0x400 ≤ (0x400#12).toNat ∧ (0x400#12).toNat ≤ 0x5FF) ∧ regRead s 0x400 = 0x01) ∧
    ((0x400 ≤ (0x5FF#12).toNat ∧ (0x5FF#12).toNat ≤ 0x5FF) ∧ regRead s 0x5FF = 0x56) ∧
    ((0x011 ≤ (0x011#12).toNat ∧ (0x011#12).toNat ≤ 0x1FF) ∧ regRead s 0x011 = 0) ∧
    ((0x011 ≤ (0x1FF#12).toNat ∧ (0x1FF#12).toNat ≤ 0x1FF) ∧ regRead s 0x1FF = 0) ∧
    (0x600 ≤ (0x600#12).toNat ∧ regRead s 0x600 = 0) ∧ (0x600 ≤ (0xFFF#12).toNat ∧ regRead s 0xFFF = 0) ∧
    regRead s 0x001 = 0x401 ∧ regRead s 0x00A = 6 := by decide +kernel

/-- A written index and one left alone; a register of each access as the model names it. -/
theorem witness_RegisterWriteReadsBack : (0x003#12, 8) ∈ [(0x003#12, 8), (0x004#12, 8)] ∧ (0x010#12 ≠ 0x003#12) ∧
    Reg.access .crcDin = .rw ∧ Reg.access .pOff = .rw ∧ Reg.access .ch3 = .rw := by decide

theorem witness_IgnoredWrites :
    (0x00C#12 ∈ [0x001#12, 0x002#12, 0x00A#12, 0x00B#12, 0x00C#12]) ∧
    (0x400 ≤ (0x400#12).toNat ∧ (0x400#12).toNat ≤ 0x5FF) ∧ (0x400 ≤ (0x5FF#12).toNat ∧ (0x5FF#12).toNat ≤ 0x5FF) ∧
    (0x011 ≤ (0x011#12).toNat ∧ (0x011#12).toNat ≤ 0x1FF) ∧ (0x011 ≤ (0x1FF#12).toNat ∧ (0x1FF#12).toNat ≤ 0x1FF) ∧
    0x600 ≤ (0x600#12).toNat ∧ 0x600 ≤ (0xFFF#12).toNat := by decide

theorem witness_IbufWindowWriteStoresOneByte :
    (0x200 ≤ (0x200#12).toNat ∧ (0x200#12).toNat ≤ 0x3FF) ∧ (0x200 ≤ (0x3FF#12).toNat ∧ (0x3FF#12).toNat ≤ 0x3FF) := by decide

theorem witness_WritesOtherThanCtrlAreIdempotent : (0x001#12 ≠ 0x000#12) ∧ (0xFFF#12 ≠ 0x000#12) := by decide

theorem witness_ResetInputResets :
    (pending encoded [.reset, .regRead 0x00A]).port = .reset :: [.regRead 0x00A] := rfl

/-! ### Witnesses: the invariants, on the state after V-ENC-1 with ENCODE's own outcome in it, not only at reset -/

theorem witness_StepKeepsInvariant :
    let s := pending encoded [.regWrite 0x000 4]
    s.Inv ∧ step s = .next { after .encode s with port := [] } := by
  intro s
  have h : exec .encode s = .next (after .encode s) := exec_after (by decide +kernel)
  have hs : serve s (.regWrite 0x000 4) = .next (after .encode s) := (regWrite_ctrl 4).trans h
  exact ⟨⟨by decide +kernel, by decide +kernel, .inr ⟨.encode, by decide +kernel⟩, .inl (by decide +kernel),
    by decide +kernel, .inr (by decide +kernel), by decide +kernel⟩, step_of_serve rfl hs⟩

/-- A state whose STATUS shows a successful DECODE meets the invariant, with D_ADDR = 3. -/
theorem witness_StepKeepsInvariant_decoded :
    let s := pending (after .decode (withFrame replyFrame 14)) [.regWrite 0x000 5]
    s.Inv ∧ s.status = 0x501 ∧ s.dAddr = 3 ∧ step s = .next { after .decode s with port := [], reply := none } := by
  intro s
  have h : exec .decode s = .next (after .decode s) := exec_after (by decide +kernel)
  have hs : serve s (.regWrite 0x000 5) = .next (after .decode s) := (regWrite_ctrl 5).trans h
  exact ⟨⟨by decide +kernel, by decide +kernel, .inr ⟨.decode, by decide +kernel⟩, .inr (by decide +kernel),
    by decide +kernel, .inl (by decide +kernel), by decide +kernel⟩, by decide +kernel, by decide +kernel,
    step_of_serve rfl hs⟩

/-- A first DECODE of a valid frame (all of its premises); then a step that keeps D_ADDR (a failing DECODE of the same bytes with IN_LEN
13), and one that changes it (from reset). -/
theorem witness_DecodedAddressStaysValid :
    (let s := withFrame replyFrame 14
     exec .decode s = .next (after .decode s) ∧ (after .decode s).status = 0x501) ∧
    (let s := { after .decode (withFrame replyFrame 14) with inLen := 13, port := [.regWrite 0x000 5] }
     (1 ≤ s.dAddr.toNat ∧ s.dAddr.toNat ≤ 247) ∧ (∀ rest, s.port ≠ .reset :: rest) ∧
       step s = .next { after .decode s with port := [], reply := none } ∧ (after .decode s).status = 0x530 ∧
       (after .decode s).dAddr = 3) ∧
    (let s := { withFrame replyFrame 14 with port := [.regWrite 0x000 5] }
     (∀ rest, s.port ≠ .reset :: rest) ∧ step s = .next { after .decode s with port := [], reply := none } ∧
       (after .decode s).dAddr ≠ s.dAddr) := by
  have key : ∀ s : State, s.port = [.regWrite 0x000 5] → answers .decode s = true →
      step s = .next { after .decode s with port := [], reply := none } := by
    intro s hp ha
    have hs : serve s (.regWrite 0x000 5) = .next (after .decode s) := (regWrite_ctrl 5).trans (exec_after ha)
    exact step_of_serve hp hs
  exact ⟨⟨exec_after (by decide +kernel), by decide +kernel⟩,
    ⟨by decide +kernel, by simp, key _ rfl (by decide +kernel), by decide +kernel, by decide +kernel⟩,
    ⟨by simp, key _ rfl (by decide +kernel), by decide +kernel⟩⟩

theorem witness_StepKeepsOutputFrame :
    let s := pending encoded [.regWrite 0x200 0xAA]
    s.OutputIsFrame ∧ s.outLen ≠ 0 ∧ step s = .next { encoded with ibuf := [(0, 0xAA)] } :=
  ⟨fun _ => ⟨3, 1, [], by decide, by decide, by decide, by decide +kernel, by decide +kernel⟩, by decide +kernel, rfl⟩

/-! ### Witnesses: the codes of HasCode, with the ignored bits all 0 and all 1 -/

theorem witness_HasCode : ∀ p ∈ [(0x1, 0x00000001#32, 0xFFFFFFF1#32), (0x2, 0x00000002#32, 0xFFFFFFF2#32),
    (0x3, 0x00000003#32, 0xFFFFFFF3#32), (0x4, 0x00000004#32, 0xFFFFFFF4#32), (0x5, 0x00000005#32, 0xFFFFFFF5#32),
    (0x6, 0x00000006#32, 0xFFFFFFF6#32), (0x7, 0x00000007#32, 0xFFFFFFF7#32)],
    p.2.1.toNat % 16 = p.1 ∧ p.2.2.toNat % 16 = p.1 := by decide

/-! ### Witnesses: checksum_gen -/

/-- V-CRC-19, V-CRC-17 and the shortest view that runs past the end. -/
theorem witness_CrcBufResult :
    (let s := State.reset.setView 1 511; s.pOff.toNat + s.pLen.toNat ≤ 512) ∧
    (let s := State.reset.setView 511 0; s.pOff.toNat + s.pLen.toNat ≤ 512) ∧
    (let s := State.reset.setView 2 511; s.pOff.toNat + s.pLen.toNat > 512) ∧
    (let s := State.reset.setView 511 2; s.pOff.toNat + s.pLen.toNat > 512) := by decide

theorem witness_StreamingChecksumEqualsOneShot :
    let u := withView 509 [0x03, 0x01, 0x00]
    u.pOff.toNat + u.pLen.toNat ≤ 512 ∧ readBytes u.ibufByte u.pOff.toNat u.pLen.toNat = [0x03, 0x01, 0x00] := by
  decide +kernel

theorem witness_PayloadViewIsLive :
    let s := State.reset.setView 1 511
    (0 < s.pLen.toNat ∧ 510 < s.pLen.toNat) ∧ s.pOff.toNat + s.pLen.toNat ≤ 512 := by decide

/-- ENCODE: the last byte of the longest payload, at the end of IBUF, with the least capacity. -/
theorem witness_PayloadViewIsLive_encode :
    let s := withFields 247 1 257 255 261 []
    254 < s.pLen.toNat ∧ s.pLen.toNat ≤ 255 ∧ s.pOff.toNat + s.pLen.toNat ≤ 512 ∧ 1 ≤ s.fAddr.toNat ∧
      s.fAddr.toNat ≤ 247 ∧ 6 + s.pLen.toNat ≤ s.outCap.toNat := by decide

/-- REPLY_UNPACK: the last byte of IBUF; and ENCODE after REPLY_PACK with the least capacity. -/
theorem witness_PayloadViewIsLive_reply :
    (let s := State.reset.setView 504 8; 7 < 8 ∧ s.pLen.toNat = 8 ∧ s.pOff.toNat + 8 ≤ 512) ∧
    (let s := withFields 1 2 0 0 14 []; 1 ≤ s.fAddr.toNat ∧ s.fAddr.toNat ≤ 247 ∧ 14 ≤ s.outCap.toNat) := by decide

/-! ### Witnesses: frame_encoder -/

/-- The conditions of success at the ends of each range: address 1 and 247, N = 0 and 255, view end 512, capacity 6 + N. -/
theorem witness_EncodeResult_success : ∀ s ∈ [withFields 1 1 511 0 6 [], withFields 247 1 257 255 261 []],
    1 ≤ s.fAddr.toNat ∧ s.fAddr.toNat ≤ 247 ∧ s.pLen.toNat ≤ 255 ∧ s.pOff.toNat + s.pLen.toNat ≤ 512 ∧
      6 + s.pLen.toNat ≤ s.outCap.toNat := by decide +kernel

theorem witness_EncodeResult_address : (withFields 0 1 0 0 6 []).fAddr = 0 ∧
    247 < (withFields 248 1 0 0 6 []).fAddr.toNat := by decide +kernel

theorem witness_EncodeResult_length : let s := withFields 247 1 0 256 300 []
    1 ≤ s.fAddr.toNat ∧ s.fAddr.toNat ≤ 247 ∧ 255 < s.pLen.toNat := by decide +kernel

theorem witness_EncodeResult_range : let s := withFields 1 1 258 255 300 []
    1 ≤ s.fAddr.toNat ∧ s.fAddr.toNat ≤ 247 ∧ s.pLen.toNat ≤ 255 ∧ 512 < s.pOff.toNat + s.pLen.toNat := by decide +kernel

theorem witness_EncodeResult_capacity : ∀ s ∈ [withFields 1 1 511 0 5 [], withFields 247 1 257 255 260 []],
    1 ≤ s.fAddr.toNat ∧ s.fAddr.toNat ≤ 247 ∧ s.pLen.toNat ≤ 255 ∧ s.pOff.toNat + s.pLen.toNat ≤ 512 ∧
      s.outCap.toNat < 6 + s.pLen.toNat := by decide +kernel

theorem witness_EncodedBytesAreTheFrame : let s := withFields 3 1 0 1 7 [0xAA]
    exec .encode s = .next (after .encode s) ∧ (after .encode s).status.getLsbD 0 = true :=
  ⟨exec_after (by decide +kernel), by decide +kernel⟩

theorem witness_OutLenIsTheSuccessSignal :
    (let s := withFields 3 1 0 1 7 [0xAA]; exec .encode s = .next (after .encode s) ∧ (after .encode s).outLen ≠ 0) ∧
    (let s := withFields 3 1 0 1 6 [0xAA]; exec .encode s = .next (after .encode s) ∧ (after .encode s).outLen = 0) ∧
    Instr.decode ≠ .encode ∧ exec .decode encoded = .next (after .decode encoded) :=
  ⟨⟨exec_after (by decide +kernel), by decide +kernel⟩, ⟨exec_after (by decide +kernel), by decide +kernel⟩, by decide,
    exec_after (by decide +kernel)⟩

/-- P5. -/
theorem witness_EncodeThenDecodeRoundTrip :
    let s := withFields 3 1 0 1 7 [0xAA]
    let t := after .encode s
    let u := withFrame [0x01, 0x03, 0x01, 0x01, 0xAA, 0xD0, 0x4F] 7
    exec .encode s = .next t ∧ t.status.getLsbD 0 = true ∧
      (∀ k, k < t.outLen.toNat → u.ibufByte k = t.obufByte k) ∧ u.inLen = t.outLen :=
  ⟨exec_after (by decide +kernel), by decide +kernel, by decide +kernel, by decide +kernel⟩

theorem witness_ReplyPackThenUnpack :
    let s := { State.reset with ch0 := 0xFF9C, ch1 := 0x8000, ch2 := 0x7FFF, ch3 := 1 }
    let t := after .replyPack s
    let u := { t with ch0 := 0, ch1 := 0, ch2 := 0, ch3 := 0, status := 0x101 }
    exec .replyPack s = .next t ∧ (∀ k, k < 8 → u.ibufByte k = t.ibufByte k) ∧ u.pOff = t.pOff ∧ u.pLen = t.pLen :=
  ⟨rfl, fun _ _ => rfl, rfl, rfl⟩

theorem witness_Int16Patterns : ((-32768 : Int) ≤ -32768 ∧ (-32768 : Int) ≤ 32767) ∧
    ((-32768 : Int) ≤ 32767 ∧ (32767 : Int) ≤ 32767) := by decide

/-! ### Witnesses: frame_decoder -/

/-- V-DEC-1, V-DEC-19 (address 247), V-DEC-2. -/
theorem witness_DecodeResult_success :
    ∀ s ∈ [withFrame pollFrame 6, withFrame [0x01, 0xF7, 0x00, 0x00, 0xC0, 0x32] 6, withFrame replyFrame 14],
      let n := (s.ibufByte 3).toNat
      6 ≤ s.inLen.toNat ∧ s.ibufByte 0 = 0x01#8 ∧ n + 6 = s.inLen.toNat ∧ crc16 (readBytes s.ibufByte 1 (3 + n)) =
        ((s.ibufByte (4 + n)).setWidth 16 ||| ((s.ibufByte (5 + n)).setWidth 16 <<< 8)) ∧
      1 ≤ (s.ibufByte 1).toNat ∧ (s.ibufByte 1).toNat ≤ 247 := by decide +kernel

/-- V-DEC-3 (D_SHORT), V-DEC-5 (D_SENTINEL), V-DEC-7 and V-DEC-8 (D_LENGTH, either way). -/
theorem witness_DecodeResult_header :
    (withFrame pollFrame 5).inLen.toNat < 6 ∧
    (let s := withFrame [0x00, 0x03, 0x01, 0x00, 0x80, 0x50] 6; 6 ≤ s.inLen.toNat ∧ s.ibufByte 0 ≠ 0x01#8) ∧
    (∀ s ∈ [withFrame (pollFrame ++ [0x00]) 7, withFrame replyFrame 13],
      6 ≤ s.inLen.toNat ∧ s.ibufByte 0 = 0x01#8 ∧ (s.ibufByte 3).toNat + 6 ≠ s.inLen.toNat) := by decide +kernel

/-- V-DEC-9. -/
theorem witness_DecodeResult_checksum :
    let s := withFrame [0x01, 0x03, 0x01, 0x00, 0x81, 0x50] 6
    let n := (s.ibufByte 3).toNat
    6 ≤ s.inLen.toNat ∧ s.ibufByte 0 = 0x01#8 ∧ n + 6 = s.inLen.toNat ∧ crc16 (readBytes s.ibufByte 1 (3 + n)) ≠
      ((s.ibufByte (4 + n)).setWidth 16 ||| ((s.ibufByte (5 + n)).setWidth 16 <<< 8)) := by decide +kernel

/-- V-DEC-10 and V-DEC-11. -/
theorem witness_DecodeResult_address :
    ∀ s ∈ [withFrame [0x01, 0x00, 0x01, 0x00, 0x70, 0x50] 6, withFrame [0x01, 0xF8, 0x01, 0x00, 0xF1, 0xA1] 6],
      let n := (s.ibufByte 3).toNat
      6 ≤ s.inLen.toNat ∧ s.ibufByte 0 = 0x01#8 ∧ n + 6 = s.inLen.toNat ∧ crc16 (readBytes s.ibufByte 1 (3 + n)) =
        ((s.ibufByte (4 + n)).setWidth 16 ||| ((s.ibufByte (5 + n)).setWidth 16 <<< 8)) ∧
      (s.ibufByte 1 = 0 ∨ 247 < (s.ibufByte 1).toNat) := by decide +kernel

theorem witness_DecodeSuccessGuarantees : let s := withFrame replyFrame 14
    exec .decode s = .next (after .decode s) ∧ (after .decode s).status.getLsbD 0 = true :=
  ⟨exec_after (by decide +kernel), by decide +kernel⟩

/-- Pairs of states: one frame, different bytes after it (check 3 passes); IN_LEN = 5 and no byte in common; no sentinel and
different bytes after the first; a wrong length and different bytes elsewhere. Then a length byte of 255 with IN_LEN = 261, and
IN_LEN = 513 with either first byte. -/
theorem witness_DecodeReadsOnlyTheInboundFrame :
    (∀ p ∈ [(withFrame pollFrame 6, withFrame (pollFrame ++ [0x77]) 6),
        (withFrame pollFrame 5, withFrame [0x02, 0x02, 0x02, 0x02, 0x02] 5),
        (withFrame [0x00, 0x03, 0x01, 0x00, 0x80, 0x50] 6, withFrame [0x00, 0x55, 0x55, 0x55, 0x55, 0x55] 6),
        (withFrame [0x01, 0x03, 0x01, 0x01, 0x80, 0x50] 6, withFrame [0x01, 0x55, 0x55, 0x01, 0x55, 0x55] 6)],
      p.2.inLen = p.1.inLen ∧ (6 ≤ p.1.inLen.toNat → p.2.ibufByte 0 = p.1.ibufByte 0) ∧
      (6 ≤ p.1.inLen.toNat → p.1.ibufByte 0 = 0x01#8 → p.2.ibufByte 3 = p.1.ibufByte 3) ∧
      (6 ≤ p.1.inLen.toNat → p.1.ibufByte 0 = 0x01#8 → (p.1.ibufByte 3).toNat + 6 = p.1.inLen.toNat →
        p.1.inLen.toNat ≤ 261 → ∀ k, k < p.1.inLen.toNat → p.2.ibufByte k = p.1.ibufByte k) ∧
      answers .decode p.1 = true ∧ answers .decode p.2 = true) ∧
    (let s := withFrame pollFrame 6
     exec .decode s = .next (after .decode s) ∧ (after .decode s).status.getLsbD 0 = true) ∧
    (let s := withFrame [0x01, 0x03, 0x01, 0xFF] 261; (s.ibufByte 3).toNat + 6 = s.inLen.toNat) ∧
    512 < (withFrame pollFrame 513).inLen.toNat ∧ 512 < (withFrame [0x00] 513).inLen.toNat :=
  ⟨by decide +kernel, ⟨exec_after (by decide +kernel), by decide +kernel⟩, by decide +kernel, by decide, by decide⟩

/-- Bit 0 of the low byte and bit 7 of the high byte of V-DEC-1 (V-DEC-20). -/
theorem witness_ChecksumBitFlipIsRejected : ∀ p ∈ [(4, 0, 0x81#8), (5, 7, 0xD0#8)],
    let s := withFrame pollFrame 6
    let t := after .decode s
    let s' := s.storeIbuf p.1 [p.2.2]
    exec .decode s = .next t ∧ t.status.getLsbD 0 = true ∧ (p.1 = 4 + t.pLen.toNat ∨ p.1 = 5 + t.pLen.toNat) ∧ p.2.1 < 8 ∧
      s'.inLen = s.inLen ∧ s'.ibufByte p.1 = s.ibufByte p.1 ^^^ (1#8 <<< p.2.1) ∧
      ∀ a, a ≠ p.1 → s'.ibufByte a = s.ibufByte a := by
  intro p h
  fin_cases h <;>
    exact ⟨exec_after (by decide +kernel), by decide +kernel, by decide +kernel, by decide, rfl, by decide +kernel,
      fun a ha => by
        rw [State.ibufByte_storeIbuf, dif_neg]; simp only [List.length_cons, List.length_nil] at ha ⊢; omega⟩

/-- P_OFF = 504 and 505, P_LEN = 7, 8 and 9 (V-RU-3 to V-RU-6). -/
theorem witness_ReplyUnpackResult :
    (let s := State.reset.setView 504 8; s.pLen.toNat = 8 ∧ s.pOff.toNat + 8 ≤ 512) ∧
    (State.reset.setView 0 7).pLen.toNat ≠ 8 ∧ (State.reset.setView 505 9).pLen.toNat ≠ 8 ∧
    (let s := State.reset.setView 505 8; s.pLen.toNat = 8 ∧ 512 < s.pOff.toNat + 8) := by decide

/-! ### Witnesses: control and all operations -/

theorem witness_NopChangesNothing : (0xFFFFFFF0#32).toNat % 16 = 0 := by decide

theorem witness_ReservedCodesReportIllegalOp : 8 ≤ (0x00000008#32).toNat % 16 ∧ 8 ≤ (0xFFFFFFFF#32).toNat % 16 := by decide

theorem witness_StatusAfterAnOperation : Instr.crcBuf ≠ .nop ∧
    (let s := withView 0 [0x03]; exec .crcBuf s = .next (after .crcBuf s)) :=
  ⟨by decide, exec_after (by decide +kernel)⟩

/-- A success, a failure of ENCODE, and NOP in a state with OK = 0. -/
theorem witness_WriteMatrix :
    (let s := withFields 3 1 0 1 7 [0xAA]
     exec .encode s = .next (after .encode s) ∧ (after .encode s).status.getLsbD 0 = true) ∧
    (let s := withFields 3 1 0 1 6 [0xAA]
     exec .encode s = .next (after .encode s) ∧ (after .encode s).status.getLsbD 0 = false) ∧
    (exec .replyPack State.reset = .next (after .replyPack State.reset) ∧
      Instr.replyPack ∈ [Instr.crcInit, .crcByte, .replyPack]) ∧
    exec .nop State.reset = .next State.reset ∧ State.reset.status.getLsbD 0 = false :=
  ⟨⟨exec_after (by decide +kernel), by decide +kernel⟩, ⟨exec_after (by decide +kernel), by decide +kernel⟩,
    ⟨rfl, by decide⟩, rfl, by decide⟩

theorem witness_FailureIsPrecise : Instr.encode ≠ .nop ∧
    (let s := withFields 3 1 0 1 6 [0xAA]
     exec .encode s = .next (after .encode s) ∧ (after .encode s).status.getLsbD 0 = false) :=
  ⟨by decide, exec_after (by decide +kernel), by decide +kernel⟩

/-- Two states that agree on ENCODE's operands and on IBUF, not on CRC_ACC, STATUS and OBUF. -/
theorem witness_OperationsAreFunctionsOfTheirOperands :
    let s := withFields 3 1 0 1 7 [0xAA]
    let s' := { s with crcAcc := 0, status := 0x540, obuf := [(6, 0xFF)] }
    Instr.encode ≠ .nop ∧ (∀ r ∈ operandRegs .encode, s'.readReg r = s.readReg r) ∧
      (.encode ∈ readsIbuf → ∀ a, a < 512 → s'.ibufByte a = s.ibufByte a) ∧ exec .encode s = .next (after .encode s) ∧
      exec .encode s' = .next (after .encode s') ∧ (after .encode s).status.getLsbD 0 = true :=
  ⟨by decide, by decide +kernel, fun _ _ _ => rfl, exec_after (by decide +kernel), exec_after (by decide +kernel),
    by decide +kernel⟩

/-- Two states whose IBUF differs, and REPLY_PACK, which reads none of it. -/
theorem witness_OperationsAreFunctionsOfTheirOperands_noIbuf :
    let s := withView 0 [0xAA]
    let s' := withView 0 [0xBB]
    Instr.replyPack ≠ .nop ∧ (∀ r ∈ operandRegs .replyPack, s'.readReg r = s.readReg r) ∧
      (.replyPack ∈ readsIbuf → ∀ a, a < 512 → s'.ibufByte a = s.ibufByte a) ∧ s'.ibufByte 0 ≠ s.ibufByte 0 ∧
      exec .replyPack s = .next (after .replyPack s) ∧ exec .replyPack s' = .next (after .replyPack s') :=
  ⟨by decide, by decide +kernel, fun h => absurd h (by decide), by decide +kernel, rfl, rfl⟩

/-- Two states that differ only in what they list at index 512, where no buffer has a byte. -/
theorem witness_OperationsStayInsideTheBuffers :
    let s := withFields 3 1 0 1 7 [0xAA]
    let s' := s.storeIbuf 512 [0x99]
    RegsSame [] s s' ∧ (∀ a, a < 512 → s'.ibufByte a = s.ibufByte a ∧ s'.obufByte a = s.obufByte a) ∧
      exec .encode s = .next (after .encode s) ∧ exec .encode s' = .next (after .encode s') :=
  ⟨fun r _ => by cases r <;> rfl, fun _ h => ⟨State.ibufByte_storeIbuf_of_lt _ h, rfl⟩, exec_after (by decide +kernel),
    exec_after (by decide +kernel)⟩

theorem witness_EncodeAndDecodeIgnoreCrcAcc :
    (let s := withFields 3 1 0 1 7 [0xAA]; exec .encode s = .next (after .encode s)) ∧
    (let s := withFrame pollFrame 6; exec .decode s = .next (after .decode s)) :=
  ⟨exec_after (by decide +kernel), exec_after (by decide +kernel)⟩

theorem witness_LoadframeLoadsTheFrame : ([] : List Byte).length ≤ 512 ∧ pollFrame.length ≤ 512 ∧
    (List.replicate 512 (0xAA : Byte)).length ≤ 512 := by decide +kernel

theorem witness_LoopbackCopiesTheOutput : State.reset.outLen.toNat ≤ 512 ∧ encoded.outLen.toNat ≤ 512 ∧
    (State.reset.setOutLen 512).outLen.toNat ≤ 512 := by decide +kernel

end Sys2Proof.Tests
end

section
/-! PROOFS. The int16 patterns of 00_scope.md R12: reading the pattern of an int16 gives the int16 back, and two patterns in wire
order. -/

namespace Sys2Proof.Machine

/-- The two's-complement round trip of R12: an int16 is in the range where `BitVec.ofInt 16` loses nothing. -/
theorem s16_u16 {x : Int} (hlo : -32768 ≤ x) (hhi : x ≤ 32767) : s16 (u16 x) = x :=
  BitVec.toInt_ofInt_eq_self (by decide) hlo (Int.lt_add_one_of_le hhi)

/-- Settles O33: the round trip is `s16_u16`; the two patterns are closed evaluations of the wire order (R60, R90). -/
theorem int16Patterns : Obligations.Int16Patterns := by
  unfold Obligations.Int16Patterns
  refine ⟨fun _ => s16_u16, ?minusHundred, ?largest⟩
  case minusHundred => decide
  case largest => decide

end Sys2Proof.Machine
end

section
/-! PROOFS. Each operation as its check, its effect and its failure: the three parts that every statement about all operations is
proved from (10_state.md R38 to R40, 60_exceptions.md R202, R204). -/

namespace Sys2Proof.Machine

/-! ### Operations and their codes -/

theorem decodeOp_opcode (i : Instr) : decodeOp i.opcode = i := by cases i <;> rfl

/-- Two operations with the same code are the same operation (30_encoding.md R81). -/
theorem opcode_injective : Function.Injective Instr.opcode := Function.LeftInverse.injective decodeOp_opcode

/-! ### The parts of an operation -/

/-- The code of the first check an operation fails, if it fails one; a reserved code always fails (60_exceptions.md R202). -/
def operationCheck : Instr → State → Option FailCode
  | .crcBuf, s => crcBufCheck s
  | .encode, s => encodeCheck s
  | .decode, s => decodeCheck s
  | .replyUnpack, s => replyUnpackCheck s
  | .nop, _ | .crcInit, _ | .crcByte, _ | .replyPack, _ => none
  | .reserved8, _ | .reserved9, _ | .reservedA, _ | .reservedB, _ | .reservedC, _ | .reservedD, _ | .reservedE, _
  | .reservedF, _ => some .illegalOp

/-- What an operation whose checks pass does to the state, before it sets STATUS. -/
def operationEffect : Instr → State → State
  | .crcInit, s => s.setCrcAcc 0xFFFF
  | .crcByte, s => s.setCrcAcc (crcStep s.crcAcc s.crcDin)
  | .crcBuf, s => s.setCrcAcc (crc16 s.viewBytes)
  | .encode, s => (s.storeObuf 0 (frameBytes s.fAddr s.fCmd s.viewBytes)).setOutLen (6 + s.viewLen)
  | .decode, s => (s.setDecoded (s.ibufByte 1) (s.ibufByte 2)).setView 4 s.declaredLen
  | .replyPack, s => (s.storeIbuf 0 (replyBytes s.ch0 s.ch1 s.ch2 s.ch3)).setView 0 8
  | .replyUnpack, s => s.setChannels (s.ibufHalf s.viewStart) (s.ibufHalf (s.viewStart + 2)) (s.ibufHalf (s.viewStart + 4))
      (s.ibufHalf (s.viewStart + 6))
  | .nop, s | .reserved8, s | .reserved9, s | .reservedA, s | .reservedB, s | .reservedC, s | .reservedD, s
  | .reservedE, s | .reservedF, s => s

/-- What an operation that fails does: ENCODE writes OUT_LEN = 0 besides STATUS (41_frame_encoder.md R121). -/
def operationFail (i : Instr) (s : State) (c : FailCode) : State :=
  if i = .encode then s.failEncode i.opcode c else s.raiseFail i.opcode c

variable {i : Instr} {s t : State} {c : FailCode}

/-- An operation other than NOP whose checks pass has its effect and sets OK. -/
theorem exec_of_check_none (hi : i ≠ .nop) (hc : operationCheck i s = none) :
    exec i s = .next ((operationEffect i s).finishOk i.opcode) := by
  cases i with
  | nop => exact absurd rfl hi
  | crcInit | crcByte | replyPack => rfl
  | crcBuf => exact execCrcBuf_of_none hc
  | encode => exact execEncode_of_none hc
  | decode => exact execDecode_of_none hc
  | replyUnpack => exact execReplyUnpack_of_none hc
  | reserved8 | reserved9 | reservedA | reservedB | reservedC | reservedD | reservedE | reservedF => cases hc

/-- An operation with a check that does not pass does nothing but fail. -/
theorem exec_of_check_some (hc : operationCheck i s = some c) : exec i s = .next (operationFail i s c) := by
  cases i with
  | nop | crcInit | crcByte | replyPack => cases hc
  | crcBuf => exact execCrcBuf_of_some hc
  | encode => exact execEncode_of_some hc
  | decode => exact execDecode_of_some hc
  | replyUnpack => exact execReplyUnpack_of_some hc
  | reserved8 | reserved9 | reservedA | reservedB | reservedC | reservedD | reservedE | reservedF => cases hc; rfl

/-- How an operation other than NOP ends: its checks pass and it has its effect, or it fails the first check that does not
pass. -/
theorem exec_ends (hi : i ≠ .nop) (h : exec i s = .next t) :
    (operationCheck i s = none ∧ t = (operationEffect i s).finishOk i.opcode) ∨
      ∃ c, operationCheck i s = some c ∧ t = operationFail i s c := by
  cases hc : operationCheck i s with
  | none =>
    rw [exec_of_check_none hi hc] at h
    injection h with h
    exact .inl ⟨rfl, h.symm⟩
  | some c =>
    rw [exec_of_check_some hc] at h
    injection h with h
    exact .inr ⟨c, rfl, h.symm⟩

theorem exec_nop (h : exec .nop s = .next t) : t = s := by
  injection h with h
  exact h.symm

/-- Everything an operation can do to the state: nothing, its effect, or its failure. -/
theorem exec_same_or_ends (h : exec i s = .next t) :
    t = s ∨ (operationCheck i s = none ∧ t = (operationEffect i s).finishOk i.opcode) ∨
      ∃ c, operationCheck i s = some c ∧ t = operationFail i s c := by
  by_cases hi : i = .nop
  · exact .inl (exec_nop (hi ▸ h))
  · exact .inr (exec_ends hi h)

/-- An operation that can pass its checks is one that can end with OK = 1. -/
theorem canSucceed_of_check_none (hi : i ≠ .nop) (hc : operationCheck i s = none) : canSucceed i = true := by
  cases i with
  | nop => exact absurd rfl hi
  | crcInit | crcByte | crcBuf | encode | decode | replyPack | replyUnpack => rfl
  | reserved8 | reserved9 | reservedA | reservedB | reservedC | reservedD | reservedE | reservedF => cases hc

/-- A check reports one of the codes 60_exceptions.md R202 lists for its operation. -/
theorem mem_failuresOf_of_check_some (hc : operationCheck i s = some c) : c ∈ failuresOf i := by
  cases i with
  | nop | crcInit | crcByte | replyPack => cases hc
  | crcBuf =>
    obtain ⟨-, rfl⟩ := crcBufCheck_eq_some.mp hc
    decide
  | encode =>
    rcases encodeCheck_eq_some.mp hc with ⟨-, rfl⟩ | ⟨-, -, rfl⟩ | ⟨-, -, -, rfl⟩ | ⟨-, -, -, -, rfl⟩ <;> decide
  | decode =>
    rcases decodeCheck_eq_some.mp hc with ⟨-, rfl⟩ | ⟨-, -, rfl⟩ | ⟨-, -, -, rfl⟩ | ⟨-, -, -, -, rfl⟩ |
      ⟨-, -, -, -, -, rfl⟩ <;> decide
  | replyUnpack => rcases replyUnpackCheck_eq_some.mp hc with ⟨-, rfl⟩ | ⟨-, -, rfl⟩ <;> decide
  | reserved8 | reserved9 | reservedA | reservedB | reservedC | reservedD | reservedE | reservedF => cases hc; decide

/-- Every operation but NOP writes STATUS, however it ends (10_state.md R40). -/
theorem status_mem_regsWritten (hi : i ≠ .nop) :
    Reg.status ∈ regsWrittenOnSuccess i ∧ Reg.status ∈ regsWrittenOnFailure i := by
  cases i <;> first | exact absurd rfl hi | decide

/-! ### What a failure writes -/

@[simp] theorem operationFail_status : (operationFail i s c).status = statusWord i.opcode c.code 0 := by
  unfold operationFail; split <;> rfl

@[simp] theorem operationFail_encode_outLen : (operationFail .encode s c).outLen = 0 := rfl

theorem operationFail_of_ne_encode (hi : i ≠ .encode) : operationFail i s c = s.raiseFail i.opcode c := if_neg hi

@[simp] theorem operationFail_ibuf : (operationFail i s c).ibuf = s.ibuf := by unfold operationFail; split <;> rfl
@[simp] theorem operationFail_obuf : (operationFail i s c).obuf = s.obuf := by unfold operationFail; split <;> rfl
@[simp] theorem operationFail_dAddr : (operationFail i s c).dAddr = s.dAddr := by unfold operationFail; split <;> rfl
@[simp] theorem operationFail_dCmd : (operationFail i s c).dCmd = s.dCmd := by unfold operationFail; split <;> rfl

theorem operationFail_ibufSame : IbufSame s (operationFail i s c) := by
  unfold operationFail; split <;> exact fun _ => rfl

theorem operationFail_obufSame : ObufSame s (operationFail i s c) := by
  unfold operationFail; split <;> exact fun _ => rfl

theorem operationFail_modelSame : ModelSame s (operationFail i s c) := by
  unfold operationFail; split <;> exact ⟨rfl, rfl, rfl⟩

/-- A failure writes the A entries of the write matrix and no other register (10_state.md R40). -/
theorem operationFail_regsSame (hi : i ≠ .nop) : RegsSame (regsWrittenOnFailure i) s (operationFail i s c) := by
  intro r hr
  by_cases he : i = .encode
  · subst he
    obtain ⟨hs, ho⟩ : r ≠ .status ∧ r ≠ .outLen := by simpa [regsWrittenOnFailure] using hr
    exact (State.readReg_setStatus _ hs _).trans (State.readReg_setOutLen s ho 0)
  · have hs : r ≠ .status := fun e => hr (e ▸ (status_mem_regsWritten hi).2)
    rw [operationFail_of_ne_encode he]
    exact State.readReg_setStatus s hs _

/-! ### What an effect writes -/

theorem operationEffect_modelSame : ModelSame s (operationEffect i s) := by cases i <;> exact ⟨rfl, rfl, rfl⟩

theorem operationEffect_resets : (operationEffect i s).resets = s.resets := by cases i <;> rfl

theorem operationEffect_ibuf (hi : i ≠ .replyPack) : (operationEffect i s).ibuf = s.ibuf := by
  cases i <;> first | rfl | exact absurd rfl hi

theorem operationEffect_obuf (hi : i ≠ .encode) : (operationEffect i s).obuf = s.obuf := by
  cases i <;> first | rfl | exact absurd rfl hi

/-- REPLY_PACK alone writes IBUF, in bytes 0 to 7 (10_state.md R35, R40). -/
theorem ibufByte_operationEffect {a : Nat} (h : i ≠ .replyPack ∨ 8 ≤ a) :
    (operationEffect i s).ibufByte a = s.ibufByte a := by
  by_cases hi : i = .replyPack
  · subst hi
    have ha : 8 ≤ a := h.resolve_left fun hn => hn rfl
    exact State.ibufByte_storeIbuf_of_ge s (by simpa using ha)
  · exact State.ibufByte_congr (operationEffect_ibuf hi) operationEffect_resets a

/-- ENCODE alone writes OBUF, below the length of the frame (10_state.md R36, R40). -/
theorem obufByte_operationEffect {a : Nat} (h : i ≠ .encode ∨ 6 + s.pLen.toNat ≤ a) :
    (operationEffect i s).obufByte a = s.obufByte a := by
  by_cases hi : i = .encode
  · subst hi
    have ha : 6 + s.pLen.toNat ≤ a := h.resolve_left fun hn => hn rfl
    exact State.obufByte_storeObuf_of_ge s (by simpa [State.viewBytes, State.viewLen] using ha)
  · exact State.obufByte_congr (operationEffect_obuf hi) operationEffect_resets a

/-- An effect writes the S entries of the write matrix and no other register (10_state.md R40). -/
theorem operationEffect_regsSame : RegsSame (regsWrittenOnSuccess i) s (operationEffect i s) := by
  intro r hr
  cases i with
  | crcInit | crcByte | crcBuf => exact State.readReg_setCrcAcc s (by rintro rfl; simp [regsWrittenOnSuccess] at hr) _
  | encode =>
    refine (State.readReg_setOutLen _ ?_ _).trans (State.readReg_storeObuf s _ _ _)
    rintro rfl
    simp [regsWrittenOnSuccess] at hr
  | decode =>
    obtain ⟨-, ho, hl, ha, hc⟩ : r ≠ .status ∧ r ≠ .pOff ∧ r ≠ .pLen ∧ r ≠ .dAddr ∧ r ≠ .dCmd := by
      simpa [regsWrittenOnSuccess] using hr
    exact (State.readReg_setView _ ho hl _ _).trans (State.readReg_setDecoded s ha hc _ _)
  | replyPack =>
    obtain ⟨-, ho, hl⟩ : r ≠ .status ∧ r ≠ .pOff ∧ r ≠ .pLen := by simpa [regsWrittenOnSuccess] using hr
    exact (State.readReg_setView _ ho hl _ _).trans (State.readReg_storeIbuf s _ _ _)
  | replyUnpack =>
    obtain ⟨-, hch⟩ : r ≠ .status ∧ r ≠ .ch0 ∧ r ≠ .ch1 ∧ r ≠ .ch2 ∧ r ≠ .ch3 := by
      simpa [regsWrittenOnSuccess] using hr
    exact State.readReg_setChannels s hch _ _ _ _
  | nop | reserved8 | reserved9 | reservedA | reservedB | reservedC | reservedD | reservedE | reservedF => rfl

/-- A success writes the S and A entries of the write matrix and no other register (10_state.md R40). -/
theorem finishOk_operationEffect_regsSame (hi : i ≠ .nop) :
    RegsSame (regsWrittenOnSuccess i) s ((operationEffect i s).finishOk i.opcode) := by
  intro r hr
  have hs : r ≠ .status := fun e => hr (e ▸ (status_mem_regsWritten hi).1)
  exact (State.readReg_setStatus _ hs _).trans (operationEffect_regsSame r hr)

/-- ENCODE alone writes OUT_LEN (10_state.md R31). -/
theorem operationEffect_outLen (hi : i ≠ .encode) : (operationEffect i s).outLen = s.outLen := by
  cases i <;> first | rfl | exact absurd rfl hi

/-- DECODE alone writes D_ADDR and D_CMD (10_state.md R32, R33). -/
theorem operationEffect_decoded (hi : i ≠ .decode) :
    (operationEffect i s).dAddr = s.dAddr ∧ (operationEffect i s).dCmd = s.dCmd := by
  cases i <;> first | exact ⟨rfl, rfl⟩ | exact absurd rfl hi

end Sys2Proof.Machine
end

section
/-! PROOFS. What STATUS shows after an operation, and which state an operation writes (10_state.md R22, R31, R40; 60_exceptions.md
R200). -/

namespace Sys2Proof.Machine

variable {i : Instr} {s t : State}

/-! ### STATUS -/

/-- An operation other than NOP leaves STATUS at an outcome of its own: OK with ERR 0, or one of its codes. -/
theorem exec_status (hi : i ≠ .nop) (h : exec i s = .next t) :
    (canSucceed i = true ∧ t.status = statusWord i.opcode 0 1) ∨
      ∃ c ∈ failuresOf i, t.status = statusWord i.opcode c.code 0 := by
  rcases exec_ends hi h with ⟨hc, rfl⟩ | ⟨c, hc, rfl⟩
  case inl => exact .inl ⟨canSucceed_of_check_none hi hc, rfl⟩
  case inr => exact .inr ⟨c, mem_failuresOf_of_check_some hc, operationFail_status⟩

/-- A failure's code is none of 0x0 and 0xC to 0xF (60_exceptions.md R200). -/
theorem failCode_range (c : FailCode) : c.code ≠ 0#4 ∧ c.code.toNat ≤ 0xB := by cases c <;> decide

/-- Settles O41: both ends of an operation write a `statusWord`, whose fields the laws of STATUS read back. -/
theorem statusAfterAnOperation : Obligations.StatusAfterAnOperation := by
  intro i s t hi h
  show statusLastop t.status = i.opcode ∧ statusReserved t.status = 0 ∧
    (t.status.getLsbD 0 = true ↔ statusErr t.status = 0) ∧ (statusErr t.status).toNat ≤ 0xB
  rcases exec_status hi h with ⟨-, hst⟩ | ⟨c, -, hst⟩
  case inl => simp [hst]
  case inr => simp [hst, failCode_range c]

/-! ### The write matrix -/

/-- Settles O42: NOP changes nothing; a success is framed by the effect's lemmas, a failure by the failure's. -/
theorem writeMatrix : Obligations.WriteMatrix := by
  intro i s t h
  by_cases hi : i = .nop
  · subst hi
    obtain rfl := exec_nop h
    exact ⟨fun _ _ _ => rfl, fun _ => ⟨fun _ _ => rfl, fun hn => absurd rfl hn⟩, fun _ => nofun, fun _ _ => rfl,
      fun _ _ => rfl, fun _ _ _ => rfl, ⟨rfl, rfl, rfl⟩, fun hm => absurd hm (by decide)⟩
  rcases exec_ends hi h with ⟨-, rfl⟩ | ⟨c, hc, rfl⟩
  case inl =>
    have hok : ((operationEffect i s).finishOk i.opcode).status.getLsbD 0 = true := by simp
    have hno : ((operationEffect i s).finishOk i.opcode).status.getLsbD 0 ≠ false := by simp
    exact ⟨fun _ => finishOk_operationEffect_regsSame hi, fun hf => absurd hf hno, fun hf => absurd hf hno,
      fun _ => ibufByte_operationEffect, fun _ => obufByte_operationEffect, fun hn => absurd hn hi,
      operationEffect_modelSame, fun _ => hok⟩
  case inr =>
    have hno : (operationFail i s c).status.getLsbD 0 ≠ true := by simp
    refine ⟨fun hok => absurd hok hno, fun _ => ⟨operationFail_regsSame hi, fun _ => ⟨operationFail_ibufSame,
      operationFail_obufSame⟩⟩, fun _ => ?outLen, fun a _ => operationFail_ibufSame a, fun a _ => operationFail_obufSame a,
      fun hn => absurd hn hi, operationFail_modelSame, ?cannotFail⟩
    case outLen => rintro rfl; rfl
    case cannotFail =>
      intro hm
      have hcheck : operationCheck i s = none := by
        simp only [List.mem_cons, List.not_mem_nil, or_false] at hm
        rcases hm with rfl | rfl | rfl <;> rfl
      rw [hcheck] at hc
      cases hc

/-! ### OUT_LEN -/

/-- OUT_LEN after a successful ENCODE: the length of the frame, which fits its 16 bits (10_state.md R31). -/
theorem encode_outLen_toNat : (operationEffect .encode s).outLen.toNat = 6 + s.pLen.toNat := by
  have h := s.pLen.isLt
  show (BitVec.ofNat 16 (6 + s.pLen.toNat)).toNat = _
  rw [BitVec.toNat_ofNat]
  omega

/-- No operation but ENCODE writes OUT_LEN (10_state.md R31, R40). -/
theorem exec_outLen_of_ne_encode (hi : i ≠ .encode) (h : exec i s = .next t) : t.outLen = s.outLen := by
  rcases exec_same_or_ends h with rfl | ⟨-, rfl⟩ | ⟨c, -, rfl⟩
  case inl => rfl
  case inr.inl => exact operationEffect_outLen hi
  case inr.inr => rw [operationFail_of_ne_encode hi, State.raiseFail_outLen]

/-- ENCODE ends with OK = 1 and OUT_LEN the length of the frame, or with OK = 0 and OUT_LEN 0 (41_frame_encoder.md R121). -/
theorem exec_encode_outLen (h : exec .encode s = .next t) :
    (encodeCheck s = none ∧ t.status = statusWord 0x4 0 1 ∧ t.outLen.toNat = 6 + s.pLen.toNat) ∨
      ∃ c : FailCode, t.status = statusWord 0x4 c.code 0 ∧ t.outLen = 0 := by
  rcases exec_ends (by decide) h with ⟨hc, rfl⟩ | ⟨c, -, rfl⟩
  case inl => exact .inl ⟨hc, rfl, encode_outLen_toNat⟩
  case inr => exact .inr ⟨c, rfl, rfl⟩

/-- The length of a frame is never 0, the value that reports a failure (90_conflicts.md C9). -/
theorem outLen_ne_zero {n : Nat} (h : t.outLen.toNat = 6 + n) : t.outLen ≠ 0#16 := by
  intro h0
  rw [h0, BitVec.toNat_zero] at h
  omega

/-- Settles O29: the two ends of ENCODE by `exec_encode_outLen`, every other operation by its frame. -/
theorem outLenIsTheSuccessSignal : Obligations.OutLenIsTheSuccessSignal := by
  refine ⟨fun s t h => ?_, fun i s t => exec_outLen_of_ne_encode⟩
  rcases exec_encode_outLen h with ⟨-, hst, hlen⟩ | ⟨c, hst, hlen⟩
  case inl => simp [hst, hlen, outLen_ne_zero hlen]
  case inr => simp [hst, hlen]

end Sys2Proof.Machine
end

section
/-! PROOFS. What one step can do to the block, and what every step keeps: the structural invariant and the address of the last frame
accepted (10_state.md R22, R31, R32; 60_exceptions.md R200, R205; 90_conflicts.md C9). -/

namespace Sys2Proof.Machine

variable {i : Instr} {s t : State}

/-! ### What a step can do -/

/-- How serving the oldest pending input can change the block: not at all (a read, an ignored write, no input), in one register the
host writes, in one byte of IBUF, by an operation, or by a reset (20_memory.md R51, R52; 70_reset_and_hazards.md R230). -/
inductive ServedTo (s : State) : State → Prop
  | same : ServedTo s s
  | register (r : Reg) (data : Word) : ServedTo s (s.writeReg r data)
  | byte {a : Nat} (b : Byte) (ha : a < 512) : ServedTo s (s.storeIbuf a [b])
  | command {data : Word} {rest : List Input} {u : State} (hp : s.port = .regWrite 0x000#12 data :: rest)
      (h : exec (decode data) s = .next u) : ServedTo s u
  | reset {rest : List Input} (hp : s.port = .reset :: rest) : ServedTo s (hostReset s)

/-- Every step is one of the changes of `ServedTo`, then the input is retired. -/
theorem step_served (h : step s = .next t) : ∃ rest ans u, ServedTo s u ∧ t = retire rest ans u := by
  rcases step_cases h with ⟨-, rfl⟩ | ⟨e, rest, u, hp, hs, rfl⟩
  case inl => exact ⟨t.port, t.reply, t, .same, rfl⟩
  case inr =>
    refine ⟨rest, answer s e, u, ?_, rfl⟩
    cases e with
    | regWrite idx data =>
      rcases regWrite_cases hs with ⟨rfl, hx⟩ | ⟨r, -, -, rfl⟩ | ⟨a, -, ha, rfl⟩ | ⟨-, -, rfl⟩
      · exact .command hp hx
      · exact .register r data
      · exact .byte _ (ibufIndex?_lt ha)
      · exact .same
    | regRead idx =>
      injection hs with hs
      exact hs ▸ .same
    | reset =>
      injection hs with hs
      exact hs ▸ .reset hp

/-! ### The decoded address -/

/-- No operation but DECODE writes D_ADDR or D_CMD (10_state.md R32, R33, R40). -/
theorem exec_decoded_of_ne_decode (hi : i ≠ .decode) (h : exec i s = .next t) : t.dAddr = s.dAddr ∧ t.dCmd = s.dCmd := by
  rcases exec_same_or_ends h with rfl | ⟨-, rfl⟩ | ⟨c, -, rfl⟩
  case inl => exact ⟨rfl, rfl⟩
  case inr.inl => exact operationEffect_decoded hi
  case inr.inr => exact ⟨operationFail_dAddr, operationFail_dCmd⟩

/-- DECODE accepts a frame with a valid address, and D_ADDR and D_CMD are bytes 1 and 2 of IBUF; or it fails, and they stay
(42_frame_decoder.md R151). -/
theorem exec_decode_cases (h : exec .decode s = .next t) :
    (t.status = 0x501#12 ∧ (1 ≤ t.dAddr.toNat ∧ t.dAddr.toNat ≤ 247) ∧ t.dAddr = t.ibufByte 1 ∧ t.dCmd = t.ibufByte 2) ∨
      (t.status.getLsbD 0 = false ∧ t.dAddr = s.dAddr ∧ t.dCmd = s.dCmd) := by
  rcases exec_ends (by decide) h with ⟨hc, rfl⟩ | ⟨c, -, rfl⟩
  case inl =>
    obtain ⟨-, -, -, -, haddr⟩ := decodeCheck_eq_none.mp hc
    exact .inl ⟨rfl, haddr, rfl, rfl⟩
  case inr => exact .inr ⟨by simp, operationFail_dAddr, operationFail_dCmd⟩

/-- A step that changes D_ADDR or D_CMD serves the reset input, or a CTRL write that decodes to DECODE and accepts a frame. -/
theorem step_decoded_cases (h : step s = .next t) :
    (t.dAddr = s.dAddr ∧ t.dCmd = s.dCmd) ∨ (∃ rest, s.port = .reset :: rest) ∨
      (∃ data rest, s.port = .regWrite 0x000#12 data :: rest ∧ decode data = .decode) ∧ t.status = 0x501#12 ∧
        (1 ≤ t.dAddr.toNat ∧ t.dAddr.toNat ≤ 247) ∧ t.dAddr = t.ibufByte 1 ∧ t.dCmd = t.ibufByte 2 := by
  obtain ⟨rest, ans, u, hu, rfl⟩ := step_served h
  cases hu with
  | same => exact .inl ⟨rfl, rfl⟩
  | register r data => exact .inl ⟨s.writeReg_dAddr r data, s.writeReg_dCmd r data⟩
  | byte b ha => exact .inl ⟨rfl, rfl⟩
  | reset hp => exact .inr (.inl ⟨_, hp⟩)
  | @command data rest u hp hx =>
    by_cases hd : decode data = .decode
    · rw [hd] at hx
      rcases exec_decode_cases hx with hok | ⟨-, hkept⟩
      · exact .inr (.inr ⟨⟨data, rest, hp, hd⟩, hok⟩)
      · exact .inl hkept
    · obtain ⟨ha, hc⟩ := exec_decoded_of_ne_decode hd hx
      exact .inl ⟨ha, hc⟩

/-- Settles O50: by the two ends of DECODE, and by what a step can do to D_ADDR and D_CMD. -/
theorem decodedAddressStaysValid : Obligations.DecodedAddressStaysValid := by
  refine ⟨fun s t h hst => ?decode, fun s t hs hnr h => ?keeps, fun s t hnr h hne => ?onlyDecode⟩
  case decode =>
    rcases exec_decode_cases h with ⟨-, haddr, -⟩ | ⟨hfail, -⟩
    · exact haddr
    · exact absurd (hst ▸ hfail) (by decide)
  case keeps =>
    rcases step_decoded_cases h with ⟨ha, -⟩ | ⟨rest, hr⟩ | ⟨-, -, haddr, -⟩
    · rwa [ha]
    · exact absurd hr (hnr rest)
    · exact haddr
  case onlyDecode =>
    rcases step_decoded_cases h with ⟨ha, hc⟩ | ⟨rest, hr⟩ | ⟨hp, hst, -, hbytes⟩
    · exact absurd hne (by simp [ha, hc])
    · exact absurd hr (hnr rest)
    · exact ⟨hp, hst, hbytes⟩

/-! ### The structural invariant -/

/-- The invariant speaks of STATUS, D_ADDR, D_CMD, OUT_LEN and the buffers only. -/
theorem State.Inv.of_same (h : s.Inv) (hst : t.status = s.status) (ha : t.dAddr = s.dAddr) (hc : t.dCmd = s.dCmd)
    (ho : t.outLen = s.outLen) (hib : Memory.wf 512 t.ibuf) (hob : t.obuf = s.obuf) : t.Inv where
  ibuf_wf := hib
  obuf_wf := hob ▸ h.obuf_wf
  status_legal := hst ▸ h.status_legal
  decoded_address := ha ▸ hc ▸ h.decoded_address
  decode_signal := hst ▸ ha ▸ h.decode_signal
  outLen_range := ho ▸ h.outLen_range
  encode_signal := hst ▸ ho ▸ h.encode_signal

theorem hostReset_inv : (hostReset s).Inv where
  ibuf_wf := Memory.wf_nil 512
  obuf_wf := Memory.wf_nil 512
  status_legal := .inl rfl
  decoded_address := .inl ⟨rfl, rfl⟩
  decode_signal := fun h => absurd (show State.reset.status = 0x501#12 from h) (by decide)
  outLen_range := .inl rfl
  encode_signal := fun h => absurd (show statusLastop State.reset.status = 0x4#4 from h) (by decide)

/-- An operation other than NOP leaves a legal STATUS (60_exceptions.md R200, R202). -/
theorem exec_legalStatus (hi : i ≠ .nop) (h : exec i s = .next t) : legalStatus t.status := by
  refine .inr ⟨i, ?_⟩
  rcases exec_status hi h with ⟨hs, hst⟩ | ⟨c, hc, hst⟩
  case inl => simp [outcomesOf, hs, hst]
  case inr => exact hst ▸ List.mem_append_right _ (List.mem_map_of_mem hc)

/-- Every operation keeps the canonical form of IBUF: only REPLY_PACK stores there, eight bytes. -/
theorem exec_ibuf_wf (hs : Memory.wf 512 s.ibuf) (h : exec i s = .next t) : Memory.wf 512 t.ibuf := by
  rcases exec_same_or_ends h with rfl | ⟨-, rfl⟩ | ⟨c, -, rfl⟩
  case inl => exact hs
  case inr.inl =>
    by_cases hi : i = .replyPack
    · subst hi
      exact Memory.storeBytes_wf _ hs (by simp)
    · rwa [State.finishOk_ibuf, operationEffect_ibuf hi]
  case inr.inr => rwa [operationFail_ibuf]

/-- Every operation keeps the canonical form of OBUF: only ENCODE stores there, at most 261 bytes (41_frame_encoder.md R121). -/
theorem exec_obuf_wf (hs : Memory.wf 512 s.obuf) (h : exec i s = .next t) : Memory.wf 512 t.obuf := by
  rcases exec_same_or_ends h with rfl | ⟨hc, rfl⟩ | ⟨c, -, rfl⟩
  case inl => exact hs
  case inr.inl =>
    by_cases hi : i = .encode
    · subst hi
      obtain ⟨-, hlen, -, -⟩ := encodeCheck_eq_none.mp hc
      refine Memory.storeBytes_wf _ hs ?_
      simp only [frameBytes_length, State.viewBytes, readBytes_length, State.viewLen]
      omega
    · rwa [State.finishOk_obuf, operationEffect_obuf hi]
  case inr.inr => rwa [operationFail_obuf]

/-- Every operation keeps the invariant: DECODE vouches for D_ADDR, ENCODE for OUT_LEN, and the STATUS of another operation names
neither. -/
theorem exec_keeps_inv (hs : s.Inv) (h : exec i s = .next t) : t.Inv := by
  by_cases hn : i = .nop
  · subst hn
    rwa [exec_nop h]
  have hlast : statusLastop t.status = i.opcode := (statusAfterAnOperation i s t hn h).1
  refine ⟨exec_ibuf_wf hs.ibuf_wf h, exec_obuf_wf hs.obuf_wf h, exec_legalStatus hn h, ?decoded, ?decodeSignal, ?outLen,
    ?encodeSignal⟩
  case decoded =>
    by_cases hi : i = .decode
    · subst hi
      rcases exec_decode_cases h with ⟨-, haddr, -⟩ | ⟨-, ha, hc⟩
      · exact .inr haddr
      · exact ha ▸ hc ▸ hs.decoded_address
    · obtain ⟨ha, hc⟩ := exec_decoded_of_ne_decode hi h
      exact ha ▸ hc ▸ hs.decoded_address
  case decodeSignal =>
    intro hst
    obtain rfl : i = .decode := opcode_injective (hlast.symm.trans (by rw [hst]; rfl))
    exact decodedAddressStaysValid.1 s t h hst
  case outLen =>
    by_cases hi : i = .encode
    · subst hi
      rcases exec_encode_outLen h with ⟨hc, -, hlen⟩ | ⟨c, -, h0⟩
      · obtain ⟨-, hle, -, -⟩ := encodeCheck_eq_none.mp hc
        exact .inr (by omega)
      · exact .inl h0
    · rw [exec_outLen_of_ne_encode hi h]
      exact hs.outLen_range
  case encodeSignal =>
    intro hop
    obtain rfl : i = .encode := opcode_injective (hlast.symm.trans hop)
    rcases exec_encode_outLen h with ⟨-, hst, hlen⟩ | ⟨c, hst, h0⟩
    · simp [hst, outLen_ne_zero hlen]
    · simp [hst, h0]

/-- Settles O17: each of the changes a step can make keeps the invariant. -/
theorem stepKeepsInvariant : Obligations.StepKeepsInvariant := by
  intro s t hs h
  obtain ⟨rest, ans, u, hu, rfl⟩ := step_served h
  have hinv : u.Inv := by
    cases hu with
    | same => exact hs
    | register r data => exact hs.of_same (by simp) (by simp) (by simp) (by simp) (by simpa using hs.ibuf_wf) (by simp)
    | byte b ha => exact hs.of_same rfl rfl rfl rfl (Memory.storeBytes_wf [b] hs.ibuf_wf ha) rfl
    | command hp hx => exact exec_keeps_inv hs hx
    | reset hp => exact hostReset_inv
  exact hinv.of_same rfl rfl rfl rfl hinv.ibuf_wf rfl

end Sys2Proof.Machine
end

section
/-! PROOFS. What an operation depends on: its check and its effect read the operands of the opcode map and nothing else (30_encoding.md
R82, 10_state.md R38, R39), so ENCODE and DECODE take no notice of CRC_ACC (10_state.md R23, 40_checksum.md R106). -/

namespace Sys2Proof.Machine

variable {i : Instr} {s s' : State}

/-- Two states agree on everything an operation reads: its operand registers and, if it reads IBUF, the 512 bytes there
(30_encoding.md R82). -/
structure SameOperands (i : Instr) (s s' : State) : Prop where
  regs : ∀ r ∈ operandRegs i, s'.readReg r = s.readReg r
  bytes : i ∈ readsIbuf → ∀ a, a < 512 → s'.ibufByte a = s.ibufByte a

/-- A register's value is determined by what the host reads of it. -/
theorem eq_of_setWidth_eq {w : Nat} {x y : BitVec w} (hw : w ≤ 32) (h : x.setWidth 32 = y.setWidth 32) : x = y := by
  have hx := congrArg (BitVec.setWidth w) h
  simpa [BitVec.setWidth_setWidth_of_le _ hw] using hx

/-! ### The operands, as fields of the state -/

theorem SameOperands.pOff (h : SameOperands i s s') (hr : Reg.pOff ∈ operandRegs i) : s'.pOff = s.pOff :=
  eq_of_setWidth_eq (by decide) (h.regs _ hr)

theorem SameOperands.pLen (h : SameOperands i s s') (hr : Reg.pLen ∈ operandRegs i) : s'.pLen = s.pLen :=
  eq_of_setWidth_eq (by decide) (h.regs _ hr)

theorem SameOperands.viewStart (h : SameOperands i s s') (hr : Reg.pOff ∈ operandRegs i) : s'.viewStart = s.viewStart :=
  congrArg BitVec.toNat (h.pOff hr)

theorem SameOperands.viewLen (h : SameOperands i s s') (hr : Reg.pLen ∈ operandRegs i) : s'.viewLen = s.viewLen :=
  congrArg BitVec.toNat (h.pLen hr)

theorem SameOperands.crcByte (h : SameOperands .crcByte s s') : s'.crcAcc = s.crcAcc ∧ s'.crcDin = s.crcDin :=
  ⟨eq_of_setWidth_eq (by decide) (h.regs .crcAcc (by decide)), eq_of_setWidth_eq (by decide) (h.regs .crcDin (by decide))⟩

theorem SameOperands.encode (h : SameOperands .encode s s') :
    s'.fAddr = s.fAddr ∧ s'.fCmd = s.fCmd ∧ s'.outCap = s.outCap :=
  ⟨eq_of_setWidth_eq (by decide) (h.regs .fAddr (by decide)), eq_of_setWidth_eq (by decide) (h.regs .fCmd (by decide)),
    eq_of_setWidth_eq (by decide) (h.regs .outCap (by decide))⟩

theorem SameOperands.decode (h : SameOperands .decode s s') : s'.inLen = s.inLen :=
  eq_of_setWidth_eq (by decide) (h.regs .inLen (by decide))

theorem SameOperands.replyPack (h : SameOperands .replyPack s s') :
    s'.ch0 = s.ch0 ∧ s'.ch1 = s.ch1 ∧ s'.ch2 = s.ch2 ∧ s'.ch3 = s.ch3 :=
  ⟨eq_of_setWidth_eq (by decide) (h.regs .ch0 (by decide)), eq_of_setWidth_eq (by decide) (h.regs .ch1 (by decide)),
    eq_of_setWidth_eq (by decide) (h.regs .ch2 (by decide)), eq_of_setWidth_eq (by decide) (h.regs .ch3 (by decide))⟩

/-! ### What is read of IBUF -/

section Bytes

variable (hb : ∀ a, a < 512 → s'.ibufByte a = s.ibufByte a)
include hb

theorem readBytes_ibufByte_eq {a n : Nat} (h : a + n ≤ 512) :
    readBytes s'.ibufByte a n = readBytes s.ibufByte a n :=
  readBytes_congr fun k hk => hb (a + k) (by omega)

theorem ibufHalf_eq {a : Nat} (h : a + 2 ≤ 512) : s'.ibufHalf a = s.ibufHalf a := by
  simp only [State.ibufHalf, hb a (by omega), hb (a + 1) (by omega)]

/-- A payload view inside IBUF names the same bytes in both states (20_memory.md R69). -/
theorem viewBytes_eq (ho : s'.pOff = s.pOff) (hl : s'.pLen = s.pLen) (h : s.pOff.toNat + s.pLen.toNat ≤ 512) :
    s'.viewBytes = s.viewBytes := by
  simp only [State.viewBytes, State.viewStart, State.viewLen, ho, hl]
  exact readBytes_ibufByte_eq hb h

theorem declaredLen_eq : s'.declaredLen = s.declaredLen := congrArg BitVec.toNat (hb 3 (by decide))

/-- DECODE reads IBUF up to index 260 at most, so its checks are the same in both states (42_frame_decoder.md R151). -/
theorem decodeCheck_eq (hin : s'.inLen = s.inLen) : decodeCheck s' = decodeCheck s := by
  have hn : s.declaredLen < 256 := (s.ibufByte 3).isLt
  have hcrc : s'.inboundCrc s.declaredLen = s.inboundCrc s.declaredLen :=
    congrArg crc16 (readBytes_ibufByte_eq hb (by omega))
  have hfield : s'.ibufHalf (4 + s.declaredLen) = s.ibufHalf (4 + s.declaredLen) := ibufHalf_eq hb (by omega)
  simp only [decodeCheck, hin, hb 0 (by decide), hb 1 (by decide), declaredLen_eq hb, hcrc, hfield]

end Bytes

/-! ### Check and effect on the same operands -/

/-- Which check fails is a function of the operands. -/
theorem operationCheck_eq (h : SameOperands i s s') : operationCheck i s' = operationCheck i s := by
  cases i with
  | crcBuf => simp only [operationCheck, crcBufCheck, h.viewStart (by decide), h.viewLen (by decide)]
  | encode =>
    obtain ⟨ha, -, hcap⟩ := h.encode
    simp only [operationCheck, encodeCheck, h.viewStart (by decide), h.viewLen (by decide), ha, hcap]
  | decode => exact decodeCheck_eq (h.bytes (by decide)) h.decode
  | replyUnpack => simp only [operationCheck, replyUnpackCheck, h.viewStart (by decide), h.viewLen (by decide)]
  | nop | crcInit | crcByte | replyPack => rfl
  | reserved8 | reserved9 | reservedA | reservedB | reservedC | reservedD | reservedE | reservedF => rfl

/-- The frame ENCODE stores is a function of its operands. -/
theorem encodedFrame_eq (h : SameOperands .encode s s') (hc : encodeCheck s = none) :
    frameBytes s'.fAddr s'.fCmd s'.viewBytes = frameBytes s.fAddr s.fCmd s.viewBytes := by
  obtain ⟨-, -, hrange, -⟩ := encodeCheck_eq_none.mp hc
  obtain ⟨ha, hcmd, -⟩ := h.encode
  rw [ha, hcmd, viewBytes_eq (h.bytes (by decide)) (h.pOff (by decide)) (h.pLen (by decide)) hrange]

/-- What a success writes in the registers is a function of the operands. -/
theorem operationEffect_regs_eq (h : SameOperands i s s') (hc : operationCheck i s = none) :
    ∀ r ∈ regsWrittenOnSuccess i, r ≠ .status → (operationEffect i s').readReg r = (operationEffect i s).readReg r := by
  intro r hr hs
  cases i with
  | crcInit =>
    obtain rfl : r = .crcAcc := by simpa [regsWrittenOnSuccess, hs] using hr
    rfl
  | crcByte =>
    obtain rfl : r = .crcAcc := by simpa [regsWrittenOnSuccess, hs] using hr
    obtain ⟨hacc, hdin⟩ := h.crcByte
    simp only [operationEffect, State.readReg, State.setCrcAcc_crcAcc, hacc, hdin]
  | crcBuf =>
    obtain rfl : r = .crcAcc := by simpa [regsWrittenOnSuccess, hs] using hr
    simp only [operationEffect, State.readReg, State.setCrcAcc_crcAcc,
      viewBytes_eq (h.bytes (by decide)) (h.pOff (by decide)) (h.pLen (by decide)) (crcBufCheck_eq_none.mp hc)]
  | encode =>
    obtain rfl : r = .outLen := by simpa [regsWrittenOnSuccess, hs] using hr
    simp only [operationEffect, State.readReg, State.setOutLen_outLen, h.viewLen (by decide)]
  | decode =>
    have hb := h.bytes (by decide)
    have hr' : r = .pOff ∨ r = .pLen ∨ r = .dAddr ∨ r = .dCmd := by simpa [regsWrittenOnSuccess, hs] using hr
    rcases hr' with rfl | rfl | rfl | rfl <;>
      simp [operationEffect, State.readReg, declaredLen_eq hb, hb 1, hb 2]
  | replyPack =>
    have hr' : r = .pOff ∨ r = .pLen := by simpa [regsWrittenOnSuccess, hs] using hr
    rcases hr' with rfl | rfl <;> rfl
  | replyUnpack =>
    have hb := h.bytes (by decide)
    obtain ⟨-, hrange⟩ := replyUnpackCheck_eq_none.mp hc
    have field (k : Nat) (hk : k ≤ 6) : s'.ibufHalf (s.viewStart + k) = s.ibufHalf (s.viewStart + k) :=
      ibufHalf_eq hb (by unfold State.viewStart; omega)
    have first : s'.ibufHalf s.viewStart = s.ibufHalf s.viewStart := field 0 (by decide)
    have hr' : r = .ch0 ∨ r = .ch1 ∨ r = .ch2 ∨ r = .ch3 := by simpa [regsWrittenOnSuccess, hs] using hr
    rcases hr' with rfl | rfl | rfl | rfl <;>
      simp [operationEffect, State.readReg, h.viewStart (by decide), first, field 2, field 4, field 6]
  | nop => simp [regsWrittenOnSuccess] at hr
  | reserved8 | reserved9 | reservedA | reservedB | reservedC | reservedD | reservedE | reservedF =>
    exact absurd (by simpa [regsWrittenOnSuccess] using hr) hs

/-- The bytes of OBUF that ENCODE writes are a function of its operands, whatever OBUF held. -/
theorem operationEffect_encode_obuf_eq (h : SameOperands .encode s s') (hc : encodeCheck s = none) {a : Nat}
    (ha : a < 6 + s.pLen.toNat) : (operationEffect .encode s').obufByte a = (operationEffect .encode s).obufByte a := by
  have hin : 0 ≤ a ∧ a < 0 + (frameBytes s.fAddr s.fCmd s.viewBytes).length := by
    simpa [State.viewBytes, State.viewLen] using ha
  simp only [operationEffect, encodedFrame_eq h hc, State.obufByte_setOutLen, State.obufByte_storeObuf, dif_pos hin]

/-- The bytes of IBUF that REPLY_PACK writes are a function of its operands, whatever IBUF held. -/
theorem operationEffect_replyPack_ibuf_eq (h : SameOperands .replyPack s s') {a : Nat} (ha : a < 8) :
    (operationEffect .replyPack s').ibufByte a = (operationEffect .replyPack s).ibufByte a := by
  obtain ⟨h0, h1, h2, h3⟩ := h.replyPack
  have hin : 0 ≤ a ∧ a < 0 + (replyBytes s.ch0 s.ch1 s.ch2 s.ch3).length := by simpa using ha
  simp only [operationEffect, h0, h1, h2, h3, State.ibufByte_setView, State.ibufByte_storeIbuf, dif_pos hin]

/-- Settles O44: on the same operands the checks decide alike; then both runs fail with one code, or both have effects that agree on
what they write. -/
theorem operationsAreFunctionsOfTheirOperands : Obligations.OperationsAreFunctionsOfTheirOperands := by
  intro i s s' t t' hi hregs hbytes ht ht'
  have h : SameOperands i s s' := ⟨hregs, hbytes⟩
  have hcheck := operationCheck_eq h
  rcases exec_ends hi ht with ⟨hc, rfl⟩ | ⟨c, hc, rfl⟩
  case inl =>
    rw [exec_of_check_none hi (hcheck.trans hc)] at ht'
    injection ht' with ht'
    subst ht'
    refine ⟨rfl, fun _ => ⟨fun r hr => ?regs, ?obuf, ?ibuf⟩⟩
    case regs =>
      by_cases hs : r = .status
      · subst hs
        rfl
      · exact (State.readReg_setStatus _ hs _).trans
          ((operationEffect_regs_eq h hc r hr hs).trans (State.readReg_setStatus _ hs _).symm)
    case obuf =>
      rintro rfl a ha
      exact operationEffect_encode_obuf_eq h hc (encode_outLen_toNat ▸ ha)
    case ibuf =>
      rintro rfl a ha
      exact operationEffect_replyPack_ibuf_eq h ha
  case inr =>
    rw [exec_of_check_some (hcheck.trans hc)] at ht'
    injection ht' with ht'
    subst ht'
    exact ⟨by simp, fun hok => by simp at hok⟩

/-! ### CRC_ACC -/

/-- Settles O47: CRC_ACC is no operand of ENCODE or DECODE, and neither their effect nor their failure touches it. -/
theorem encodeAndDecodeIgnoreCrcAcc : Obligations.EncodeAndDecodeIgnoreCrcAcc := by
  intro i s t v hi h
  have hn : i ≠ .nop := by rcases hi with rfl | rfl <;> decide
  have hcheck : operationCheck i (s.setCrcAcc v) = operationCheck i s := by rcases hi with rfl | rfl <;> rfl
  show t.crcAcc = s.crcAcc ∧ exec i (s.setCrcAcc v) = .next (t.setCrcAcc v)
  rcases exec_ends hn h with ⟨hc, rfl⟩ | ⟨c, hc, rfl⟩
  case inl =>
    rw [exec_of_check_none hn (hcheck.trans hc)]
    rcases hi with rfl | rfl <;> exact ⟨rfl, rfl⟩
  case inr =>
    rw [exec_of_check_some (hcheck.trans hc)]
    rcases hi with rfl | rfl <;> exact ⟨rfl, rfl⟩

end Sys2Proof.Machine
end

section
/-! PROOFS. The host port, access by access: what a write and a read of each class of index do (20_memory.md R51 to R57, R63). -/

namespace Sys2Proof.Machine

variable {s : State} {idx : HostIndex} {r : Reg}

/-! ### Writes -/

/-- A write of an index in the IBUF window stores data[7:0] in the byte the index names (20_memory.md R51). -/
theorem regWrite_ibufByte {i : Nat} (hr : Reg.ofIndex? idx = none) (hi : ibufIndex? idx = some i) (s : State)
    (data : Word) : regWrite s idx data = .next (s.storeIbuf i [data.setWidth 8]) := by
  simp only [regWrite, hr, hi]

/-- A write of an index that names neither a register nor a byte of IBUF is ignored (20_memory.md R56). -/
theorem regWrite_unmapped (hr : Reg.ofIndex? idx = none) (hi : ibufIndex? idx = none) (s : State) (data : Word) :
    regWrite s idx data = .next s := by
  simp only [regWrite, hr, hi]

theorem regWrite_ibuf_window (hlo : 0x200 ≤ idx.toNat) (hhi : idx.toNat ≤ 0x3FF) (s : State) (data : Word) :
    regWrite s idx data = .next (s.storeIbuf (idx.toNat - 0x200) [data.setWidth 8]) :=
  regWrite_ibufByte (Reg.ofIndex?_eq_none (by omega)) (ibufIndex?_of_mem hlo hhi) s data

/-- Above the registers, only the IBUF window takes writes (20_memory.md R56). -/
theorem regWrite_outside (hlo : 0x011 ≤ idx.toNat) (hout : idx.toNat < 0x200 ∨ 0x3FF < idx.toNat) (s : State)
    (data : Word) : regWrite s idx data = .next s :=
  regWrite_unmapped (Reg.ofIndex?_eq_none hlo) (ibufIndex?_of_not_mem hout) s data

/-- A write of a read-only register is ignored (20_memory.md R56). -/
theorem regWrite_readOnly (hr : r.access = .ro) (s : State) (data : Word) : regWrite s r.index data = .next s := by
  have hctrl : r ≠ .ctrl := by rintro rfl; cases hr
  have hrw : r.access ≠ .rw := by rw [hr]; decide
  rw [regWrite_index hctrl, State.writeReg_of_not_rw s hrw]

/-- What a write of an index other than CTRL does, the same in every state: it writes one register, stores one byte of IBUF, or is
ignored. -/
theorem regWrite_of_ne_ctrl (h : idx ≠ 0x000#12) (data : Word) :
    (∃ r, ∀ s, regWrite s idx data = .next (s.writeReg r data)) ∨
      (∃ i, ∀ s, regWrite s idx data = .next (s.storeIbuf i [data.setWidth 8])) ∨
      ∀ s, regWrite s idx data = .next s := by
  cases hr : Reg.ofIndex? idx with
  | some r =>
    have hctrl : r ≠ .ctrl := by
      rintro rfl
      exact h (Reg.ofIndex?_eq_ctrl_iff.mp hr)
    obtain rfl := Reg.ofIndex?_eq_some_iff.mp hr
    exact .inl ⟨r, fun s => regWrite_index hctrl data⟩
  | none =>
    cases hi : ibufIndex? idx with
    | some i => exact .inr (.inl ⟨i, fun s => regWrite_ibufByte hr hi s data⟩)
    | none => exact .inr (.inr fun s => regWrite_unmapped hr hi s data)

theorem State.writeReg_writeReg (s : State) (r : Reg) (data : Word) :
    (s.writeReg r data).writeReg r data = s.writeReg r data := by cases r <;> rfl

theorem State.storeIbuf_storeIbuf (s : State) (i : Nat) (b : Byte) :
    (s.storeIbuf i [b]).storeIbuf i [b] = s.storeIbuf i [b] :=
  congrArg (fun m => { s with ibuf := m }) (Memory.store_store_same s.ibuf i b)

/-- Settles O13: each of the three things such a write can do is idempotent. -/
theorem writesOtherThanCtrlAreIdempotent : Obligations.WritesOtherThanCtrlAreIdempotent := by
  intro s idx data h
  rcases regWrite_of_ne_ctrl h data with ⟨r, hw⟩ | ⟨i, hw⟩ | hw
  · exact ⟨_, hw s, by rw [hw, State.writeReg_writeReg]⟩
  · exact ⟨_, hw s, by rw [hw, State.storeIbuf_storeIbuf]⟩
  · exact ⟨s, hw s, hw s⟩

/-- Settles O12: the write is `regWrite_ibuf_window`, and a stored byte of IBUF is read back there and nowhere else. -/
theorem ibufWindowWriteStoresOneByte : Obligations.IbufWindowWriteStoresOneByte := by
  intro s idx data hlo hhi
  refine ⟨_, regWrite_ibuf_window hlo hhi s data, ?stored, fun a ha => ?otherBytes, fun r _ => State.readReg_storeIbuf s _ _ r,
    fun a => State.obufByte_storeIbuf s _ _ a, ⟨rfl, rfl, rfl⟩⟩
  case stored => simp [State.ibufByte_storeIbuf]
  case otherBytes =>
    rw [State.ibufByte_storeIbuf, dif_neg]
    simp only [List.length_singleton]
    omega

/-! ### Reads -/

/-- A read in the IBUF window returns the byte the index names (20_memory.md R52). -/
theorem regRead_ibuf_window (s : State) (hlo : 0x200 ≤ idx.toNat) (hhi : idx.toNat ≤ 0x3FF) :
    regRead s idx = (s.ibufByte (idx.toNat - 0x200)).setWidth 32 := by
  simp only [regRead, Reg.ofIndex?_eq_none (show 0x011 ≤ idx.toNat by omega), ibufIndex?_of_mem hlo hhi]

/-- A read in the OBUF window returns the byte the index names (20_memory.md R52). -/
theorem regRead_obuf_window (s : State) (hlo : 0x400 ≤ idx.toNat) (hhi : idx.toNat ≤ 0x5FF) :
    regRead s idx = (s.obufByte (idx.toNat - 0x400)).setWidth 32 := by
  simp only [regRead, Reg.ofIndex?_eq_none (show 0x011 ≤ idx.toNat by omega),
    ibufIndex?_of_not_mem (show idx.toNat < 0x200 ∨ 0x3FF < idx.toNat by omega), obufIndex?_of_mem hlo hhi]

/-- A reserved index reads 0 (20_memory.md R52, R56). -/
theorem regRead_reserved (s : State) (hlo : 0x011 ≤ idx.toNat) (hres : idx.toNat ≤ 0x1FF ∨ 0x600 ≤ idx.toNat) :
    regRead s idx = 0 := by
  simp only [regRead, Reg.ofIndex?_eq_none hlo,
    ibufIndex?_of_not_mem (show idx.toNat < 0x200 ∨ 0x3FF < idx.toNat by omega),
    obufIndex?_of_not_mem (show idx.toNat < 0x400 ∨ 0x5FF < idx.toNat by omega)]

/-- Settles O9: the registers by `regRead_index`, the windows and the reserved ranges by their lemmas. -/
theorem regReadByClass : Obligations.RegReadByClass := by
  intro s
  exact ⟨fun _ => ⟨rfl, rfl⟩, regRead_index .ctrl, regRead_index .status, regRead_index .crcAcc, regRead_index .crcDin,
    regRead_index .fAddr, regRead_index .fCmd, regRead_index .pOff, regRead_index .pLen, regRead_index .inLen,
    regRead_index .outCap, regRead_index .outLen, regRead_index .dAddr, regRead_index .dCmd, regRead_index .ch0,
    regRead_index .ch1, regRead_index .ch2, regRead_index .ch3, fun _ => regRead_ibuf_window s,
    fun _ => regRead_obuf_window s, fun _ hlo hhi => regRead_reserved s hlo (.inl hhi),
    fun _ hlo => regRead_reserved s (by omega) (.inr hlo)⟩

/-! ### Registers -/

/-- What is stored in a register has the register's width (20_memory.md R55). -/
theorem State.readReg_lt (s : State) (r : Reg) : (s.readReg r).toNat < 2 ^ r.width := by
  have setWidth_lt {w : Nat} (x : BitVec w) : (x.setWidth 32).toNat < 2 ^ w := by
    rw [BitVec.toNat_setWidth]
    exact Nat.lt_of_le_of_lt (Nat.mod_le _ _) x.isLt
  cases r with
  | ctrl => exact Nat.two_pow_pos 4
  | status | crcAcc | crcDin | fAddr | fCmd | pOff | pLen | inLen | outCap | outLen | dAddr | dCmd | ch0 | ch1 | ch2 | ch3 =>
    exact setWidth_lt _

/-- A register the host may write stores bits [w-1:0] of the data (20_memory.md R55). -/
theorem State.readReg_writeReg_self (s : State) (hr : r.access = .rw) (data : Word) :
    ((s.writeReg r data).readReg r).toNat = data.toNat % 2 ^ r.width := by
  have truncated {w : Nat} (hw : w ≤ 32) : ((data.setWidth w).setWidth 32).toNat = data.toNat % 2 ^ w := by
    rw [BitVec.toNat_setWidth, BitVec.toNat_setWidth]
    exact Nat.mod_eq_of_lt (Nat.lt_of_lt_of_le (Nat.mod_lt _ (Nat.two_pow_pos w)) (Nat.pow_le_pow_right (by decide) hw))
  cases r with
  | ctrl | status | crcAcc | outLen | dAddr | dCmd => cases hr
  | crcDin | fAddr | fCmd | pOff | pLen | inLen | outCap | ch0 | ch1 | ch2 | ch3 => exact truncated (by decide)

/-- A write of a register the host may write changes that register and nothing else (20_memory.md R51). -/
theorem State.writeReg_onlyRegsChange (s : State) (r : Reg) (data : Word) : OnlyRegsChange [r] s (s.writeReg r data) :=
  ⟨fun _ hr' => State.readReg_writeReg_ne s (List.ne_of_not_mem_cons hr') data,
    State.ibufByte_writeReg s r data, State.obufByte_writeReg s r data,
    State.writeReg_port s r data, State.writeReg_reply s r data, State.writeReg_resets s r data⟩

theorem regWrite_readWrite (hr : r.access = .rw) (s : State) (data : Word) :
    regWrite s r.index data = .next (s.writeReg r data) :=
  regWrite_index (by rintro rfl; cases hr) data

/-- A register the host may write reads back the low bits of what was written (20_memory.md R55). -/
theorem regRead_writeReg_self (s : State) (hr : r.access = .rw) (data : Word) :
    (regRead (s.writeReg r data) r.index).toNat = data.toNat % 2 ^ r.width := by
  rw [regRead_index]
  exact State.readReg_writeReg_self s hr data

/-- Settles O10: each row of the two tables is the index and width of one of the model's registers, for which the register laws
say it. -/
theorem registerWriteReadsBack : Obligations.RegisterWriteReadsBack := by
  refine ⟨fun p hp s data => ?readsBack, fun p hp s => ?width, fun s r data hr => ?named,
    fun s r => regRead_index r ▸ State.readReg_lt s r, fun s idx hidx => ?channels⟩
  case readsBack =>
    obtain ⟨r, -, hr, rfl⟩ : ∃ r ∈ Reg.all, r.access = .rw ∧ (r.index, r.width) = p := by
      revert p hp
      decide
    exact ⟨_, regWrite_readWrite hr s data, regRead_writeReg_self s hr data, fun _ h => regRead_writeReg_ne h data⟩
  case width =>
    obtain ⟨r, -, rfl⟩ : ∃ r ∈ Reg.all, (r.index, r.width) = p := by
      revert p hp
      decide
    exact regRead_index r ▸ State.readReg_lt s r
  case named =>
    exact ⟨_, regWrite_readWrite hr s data, regRead_writeReg_self s hr data, State.writeReg_onlyRegsChange s r data⟩
  case channels =>
    obtain ⟨r, -, hr, hw, rfl⟩ : ∃ r ∈ Reg.all, r.access = .rw ∧ r.width = 16 ∧ r.index = idx := by
      revert idx hidx
      decide
    refine ⟨_, regWrite_readWrite hr s _, BitVec.eq_of_toNat_eq ?_⟩
    rw [regRead_writeReg_self s hr, hw]
    rfl

end Sys2Proof.Machine
end

section
/-! PROOFS. Steps and runs: every step serves the oldest pending input and answers a next state, and what is served does not depend on
the inputs pending behind it (20_memory.md R50 to R53, R56, R58, R66). -/

namespace Sys2Proof.Machine

variable {s t : State} {i : Instr}

/-! ### No access stops the block -/

/-- Every operation ends with a next state (60_exceptions.md R204). -/
theorem exec_next (i : Instr) (s : State) : ∃ t, exec i s = .next t := by
  by_cases hi : i = .nop
  · exact ⟨s, hi ▸ rfl⟩
  cases hc : operationCheck i s with
  | none => exact ⟨_, exec_of_check_none hi hc⟩
  | some c => exact ⟨_, exec_of_check_some hc⟩

theorem regWrite_next (s : State) (idx : HostIndex) (data : Word) : ∃ t, regWrite s idx data = .next t := by
  by_cases h : idx = 0x000#12
  · subst h
    exact exec_next (decode data) s
  · rcases regWrite_of_ne_ctrl h data with ⟨r, hw⟩ | ⟨i, hw⟩ | hw <;> exact ⟨_, hw s⟩

theorem serve_next (s : State) (e : Input) : ∃ t, serve s e = .next t := by
  cases e with
  | regWrite idx data => exact regWrite_next s idx data
  | regRead idx => exact ⟨s, rfl⟩
  | reset => exact ⟨hostReset s, rfl⟩

theorem step_of_port_nil (hp : s.port = []) : step s = .next s := by
  unfold step
  rw [hp]

/-- A step with an input pending serves the oldest one and leaves the others pending. -/
theorem step_of_port_cons {e : Input} {rest : List Input} (hp : s.port = e :: rest) :
    ∃ t, serve s e = .next t ∧ step s = .next (retire rest (answer s e) t) := by
  obtain ⟨t, ht⟩ := serve_next s e
  exact ⟨t, ht, step_of_serve hp ht⟩

theorem step_next (s : State) : ∃ t, step s = .next t := by
  cases hp : s.port with
  | nil => exact ⟨s, step_of_port_nil hp⟩
  | cons e rest =>
    obtain ⟨t, -, hstep⟩ := step_of_port_cons hp
    exact ⟨_, hstep⟩

/-- Settles O6: a step serves an input or finds none, and every input is served. -/
theorem everyStepAnswersNext : Obligations.EveryStepAnswersNext := step_next

/-- Settles O11: writes by the class of their index, reserved reads by `regRead_reserved`, no stop by `regWrite_next`. -/
theorem ignoredWrites : Obligations.IgnoredWrites := by
  refine fun s data => ⟨fun idx => ⟨regWrite_next s idx data, rfl⟩, fun idx hidx => ?readOnly,
    fun idx hlo _ => regWrite_outside (by omega) (by omega) s data,
    fun idx hlo hhi => ⟨regWrite_outside hlo (by omega) s data, regRead_reserved s hlo (.inl hhi)⟩,
    fun idx hlo => ⟨regWrite_outside (by omega) (by omega) s data, regRead_reserved s (by omega) (.inr hlo)⟩⟩
  case readOnly =>
    obtain ⟨r, -, hr, rfl⟩ : ∃ r ∈ Reg.all, r.access = .ro ∧ r.index = idx := by
      revert idx hidx
      decide
    exact regWrite_readOnly hr s data

/-! ### What a step serves -/

/-- A step with a write pending does that write, then retires it. -/
theorem step_of_regWrite {idx : HostIndex} {data : Word} {rest : List Input} (hp : s.port = .regWrite idx data :: rest)
    (h : regWrite s idx data = .next t) : step s = .next { t with port := rest, reply := none } :=
  step_of_serve hp h

/-- A step with a read pending returns the value read and changes nothing but the model's own fields. -/
theorem step_of_regRead {idx : HostIndex} {rest : List Input} (hp : s.port = .regRead idx :: rest) :
    step s = .next { s with port := rest, reply := some (regRead s idx) } :=
  step_of_serve hp rfl

/-- Settles O4: a CTRL write is the decoded operation (`regWrite_ctrl`). -/
theorem stepRunsTheCommand : Obligations.StepRunsTheCommand :=
  fun _ _ data _ hp h => step_of_regWrite hp ((regWrite_ctrl data).trans h)

/-- Settles O5: the three other things a step can find pending. -/
theorem stepServesTheOtherInputs : Obligations.StepServesTheOtherInputs :=
  ⟨fun _ _ _ _ _ hp _ h => step_of_regWrite hp h, fun _ _ _ => step_of_regRead, fun _ => step_of_port_nil⟩

/-! ### Runs -/

/-- A run of one step is the step. -/
theorem run_one (h : step s = .next t) : Host.Core.run Sys2Proof.core 1 s = .next t := run_succ_of_step h

/-- A run of more steps is a run of the first ones, then a run of the others. -/
theorem run_add (m n : Nat) : ∀ {s t : State}, Host.Core.run Sys2Proof.core m s = .next t →
    Host.Core.run Sys2Proof.core (m + n) s = Host.Core.run Sys2Proof.core n t := by
  induction m with
  | zero =>
    intro s t h
    injection h with h
    rw [Nat.zero_add, h]
  | succ m ih =>
    intro s t h
    obtain ⟨u, hu⟩ := step_next s
    rw [run_succ_of_step hu] at h
    rw [Nat.add_right_comm, run_succ_of_step hu, ih h]

/-- As many steps as inputs are pending serve them all. -/
theorem run_serves_pending (pending : List Input) : ∀ {s : State}, s.port = pending →
    ∃ t : State, Host.Core.run Sys2Proof.core pending.length s = .next t ∧ t.port = [] := by
  induction pending with
  | nil => exact fun {s} hp => ⟨s, rfl, hp⟩
  | cons e rest ih =>
    intro s hp
    obtain ⟨u, -, hstep⟩ := step_of_port_cons hp
    obtain ⟨t, hrun, hport⟩ := ih (s := retire rest (answer s e) u) rfl
    exact ⟨t, (run_succ_of_step hstep).trans hrun, hport⟩

/-- Settles O7: the run, by induction on the pending inputs, is `run_serves_pending`. -/
theorem pendingInputsAreAllServed : Obligations.PendingInputsAreAllServed := fun _ => run_serves_pending _ rfl

/-! ### The inputs pending behind the one served -/

/-- The state with other inputs pending; nothing the block does to the rest of the state depends on them. -/
def State.withPort (s : State) (p : List Input) : State := { s with port := p }

variable (s) (p : List Input)

@[simp] theorem State.withPort_port : (s.withPort p).port = p := rfl

theorem operationCheck_withPort : operationCheck i (s.withPort p) = operationCheck i s := by cases i <;> rfl

theorem operationEffect_withPort : operationEffect i (s.withPort p) = (operationEffect i s).withPort p := by
  cases i <;> rfl

theorem operationFail_withPort (c : FailCode) : operationFail i (s.withPort p) c = (operationFail i s c).withPort p := by
  unfold operationFail
  split <;> rfl

theorem State.writeReg_withPort (r : Reg) (data : Word) : (s.withPort p).writeReg r data = (s.writeReg r data).withPort p := by
  cases r <;> rfl

theorem regRead_withPort (idx : HostIndex) : regRead (s.withPort p) idx = regRead s idx := by
  unfold regRead
  cases Reg.ofIndex? idx with
  | some r => cases r <;> rfl
  | none => rfl

theorem answer_withPort (e : Input) : answer (s.withPort p) e = answer s e := by
  cases e with
  | regRead idx => exact congrArg some (regRead_withPort s p idx)
  | regWrite | reset => rfl

variable {s}

theorem exec_withPort (h : exec i s = .next t) : exec i (s.withPort p) = .next (t.withPort p) := by
  by_cases hi : i = .nop
  · subst hi
    rw [exec_nop h]
    rfl
  rcases exec_ends hi h with ⟨hc, rfl⟩ | ⟨c, hc, rfl⟩
  case inl =>
    rw [exec_of_check_none hi ((operationCheck_withPort s p).trans hc), operationEffect_withPort]
    rfl
  case inr => rw [exec_of_check_some ((operationCheck_withPort s p).trans hc), operationFail_withPort]

theorem regWrite_withPort {idx : HostIndex} {data : Word} (h : regWrite s idx data = .next t) :
    regWrite (s.withPort p) idx data = .next (t.withPort p) := by
  by_cases h0 : idx = 0x000#12
  · subst h0
    exact exec_withPort p h
  rcases regWrite_of_ne_ctrl h0 data with ⟨r, hw⟩ | ⟨i, hw⟩ | hw <;>
    obtain rfl := Host.Outcome.next.inj ((hw s).symm.trans h)
  · rw [hw, State.writeReg_withPort]
  · exact hw _
  · exact hw _

theorem serve_withPort {e : Input} (h : serve s e = .next t) : serve (s.withPort p) e = .next (t.withPort p) := by
  cases e with
  | regWrite idx data => exact regWrite_withPort p h
  | regRead idx | reset =>
    injection h with h
    exact h ▸ rfl

/-- Serving the oldest input leaves the same state whatever is pending behind it, and that stays pending (20_memory.md R66). -/
theorem step_append {e : Input} {rest : List Input} (later : List Input) (h : step (s.withPort (e :: rest)) = .next t) :
    step (s.withPort (e :: rest ++ later)) = .next (t.withPort (rest ++ later)) ∧ t.port = rest := by
  obtain ⟨u, hu, hstep⟩ := step_of_port_cons (s.withPort_port (e :: rest))
  have hu' : serve (s.withPort (e :: rest ++ later)) e = .next (u.withPort (e :: rest ++ later)) :=
    serve_withPort (s := s.withPort (e :: rest)) _ hu
  have hstep' := step_of_serve (s.withPort_port _) hu'
  obtain rfl := Host.Outcome.next.inj (hstep.symm.trans h)
  rw [answer_withPort] at hstep' ⊢
  exact ⟨hstep', rfl⟩

/-- The same of a run that serves a whole sequence of inputs. -/
theorem run_append (earlier later : List Input) : ∀ {s t : State},
    Host.Core.run Sys2Proof.core earlier.length (s.withPort earlier) = .next t →
    Host.Core.run Sys2Proof.core earlier.length (s.withPort (earlier ++ later)) = .next (t.withPort later) := by
  induction earlier with
  | nil =>
    intro s t h
    injection h with h
    exact h ▸ rfl
  | cons e rest ih =>
    intro s t h
    obtain ⟨u, hu⟩ := step_next (s.withPort (e :: rest))
    obtain ⟨hu', hport⟩ := step_append later hu
    have hrest : u = u.withPort rest := hport ▸ rfl
    rw [List.length_cons, run_succ_of_step hu, hrest] at h
    rw [List.length_cons, run_succ_of_step hu']
    exact ih h

/-- Settles O8: one transaction by its step, the rest by `run_append` and `run_add`. -/
theorem transactionsTakeEffectInIssueOrder : Obligations.TransactionsTakeEffectInIssueOrder := by
  refine ⟨fun s t idx data rest hp h => run_one (step_of_regWrite hp h), fun s idx rest hp => run_one (step_of_regRead hp),
    fun s t earlier later h => ?_⟩
  have hrun := run_append earlier later h
  refine ⟨hrun, ?_⟩
  rw [List.length_append]
  exact run_add earlier.length later.length hrun

end Sys2Proof.Machine
end

section
/-! PROOFS. The payload view is a range of live bytes of IBUF, not a copy: its three readers see what a host write or REPLY_PACK left
there (20_memory.md R69, 70_reset_and_hazards.md R240). -/

namespace Sys2Proof.Machine

variable {s : State}

/-! ### What the three readers do with the view -/

/-- CRC_BUF on a view inside IBUF gives the checksum of the view's bytes (40_checksum.md R104). -/
theorem exec_crcBuf_of_inside (h : s.pOff.toNat + s.pLen.toNat ≤ 512) :
    ∃ u, exec .crcBuf s = .next u ∧ u.crcAcc = crc16 s.viewBytes :=
  ⟨_, execCrcBuf_of_none (crcBufCheck_eq_none.mpr h), rfl⟩

/-- ENCODE, when its checks pass, leaves OUT_LEN the length of the frame and OBUF[0 .. OUT_LEN) the frame of F_ADDR, F_CMD and the view's
bytes (41_frame_encoder.md R121, R122). -/
theorem exec_encode_of_check_none (hc : encodeCheck s = none) :
    ∃ u, exec .encode s = .next u ∧ u.outLen.toNat = 6 + s.pLen.toNat ∧
      readBytes u.obufByte 0 u.outLen.toNat = frameBytes s.fAddr s.fCmd s.viewBytes := by
  have hlen : (operationEffect .encode s).outLen.toNat = (frameBytes s.fAddr s.fCmd s.viewBytes).length := by
    rw [encode_outLen_toNat, frameBytes_length, State.viewBytes, readBytes_length, State.viewLen]
  refine ⟨_, execEncode_of_none hc, encode_outLen_toNat, ?_⟩
  exact (congrArg (readBytes _ 0) hlen).trans (State.readBytes_storeObuf s 0 _)

/-- REPLY_UNPACK, when its checks pass, leaves the channels that pack to the view's bytes (42_frame_decoder.md R160). -/
theorem exec_replyUnpack_of_check_none (hc : replyUnpackCheck s = none) :
    ∃ u, exec .replyUnpack s = .next u ∧ replyBytes u.ch0 u.ch1 u.ch2 u.ch3 = s.viewBytes := by
  refine ⟨_, execReplyUnpack_of_none hc, ?_⟩
  obtain ⟨hlen, -⟩ := replyUnpackCheck_eq_none.mp hc
  simp [replyBytes_eq, State.ibufHalf, State.viewBytes, State.viewLen, hlen, readBytes]

/-! ### A host write in the view -/

/-- Storing one byte replaces that byte of a run, if the run reaches it. -/
theorem readBytes_storeIbuf_set (s : State) (b : Byte) (a n k : Nat) :
    readBytes (s.storeIbuf (a + k) [b]).ibufByte a n = (readBytes s.ibufByte a n).set k b := by
  rw [readBytes_eq_iff (by simp)]
  intro j hj
  rw [State.ibufByte_storeIbuf, List.getElem_set]
  by_cases hjk : k = j
  · subst hjk
    simp
  · rw [dif_neg (by simp only [List.length_singleton]; omega), if_neg hjk, readBytes_getElem]

/-- A host write of the k-th byte the view names stores it in IBUF, and the view then names the old payload with that byte replaced
(20_memory.md R51, R69). -/
theorem regWrite_viewByte {k : Nat} (data : Word) (hk : k < s.pLen.toNat) (hview : s.pOff.toNat + s.pLen.toNat ≤ 512) :
    ∃ t, regWrite s (BitVec.ofNat 12 (0x200 + s.pOff.toNat + k)) data = .next t ∧
      t = s.storeIbuf (s.pOff.toNat + k) [data.setWidth 8] ∧ t.viewBytes = s.viewBytes.set k (data.setWidth 8) := by
  have hidx : (BitVec.ofNat 12 (0x200 + s.pOff.toNat + k)).toNat = 0x200 + (s.pOff.toNat + k) := by
    rw [BitVec.toNat_ofNat]
    omega
  refine ⟨_, ?_, rfl, readBytes_storeIbuf_set s _ _ _ _⟩
  rw [regWrite_ibuf_window (by omega) (by omega), hidx, Nat.add_sub_cancel_left]

/-! ### The view after REPLY_PACK -/

/-- REPLY_PACK leaves a view of the eight packed bytes, and ENCODE's other operands as they were (41_frame_encoder.md R130). -/
theorem exec_replyPack_view (s : State) :
    ∃ t, exec .replyPack s = .next t ∧ t.pOff.toNat = 0 ∧ t.pLen.toNat = 8 ∧
      t.viewBytes = replyBytes s.ch0 s.ch1 s.ch2 s.ch3 ∧ t.fAddr = s.fAddr ∧ t.fCmd = s.fCmd ∧ t.outCap = s.outCap :=
  ⟨_, exec_of_check_none (by decide) rfl, rfl, rfl, State.readBytes_storeIbuf s 0 _, rfl, rfl, rfl⟩

/-- Settles O46: a host write or REPLY_PACK says what the view then names, and each reader what it does with that. -/
theorem payloadViewIsLive : Obligations.PayloadViewIsLive := by
  refine ⟨fun s k data hk hview => ?writeCrcBuf, fun s k data hk hmax hview hlo hhi hcap => ?writeEncode,
    fun s k data hk hlen hview => ?writeReplyUnpack, fun s => ?packCrcBuf, fun s hlo hhi hcap => ?packEncode⟩
  case writeCrcBuf =>
    obtain ⟨t, hw, rfl, hbytes⟩ := regWrite_viewByte data hk hview
    obtain ⟨u, hu, hcrc⟩ := exec_crcBuf_of_inside (s := s.storeIbuf _ _) hview
    exact ⟨_, u, hw, hu, hcrc.trans (congrArg crc16 hbytes)⟩
  case writeEncode =>
    obtain ⟨t, hw, rfl, hbytes⟩ := regWrite_viewByte data hk hview
    obtain ⟨u, hu, hlen, hframe⟩ := exec_encode_of_check_none (s := s.storeIbuf _ _)
      (encodeCheck_eq_none.mpr ⟨⟨hlo, hhi⟩, hmax, hview, hcap⟩)
    exact ⟨_, u, hw, hu, hlen, hframe.trans (congrArg (frameBytes s.fAddr s.fCmd) hbytes)⟩
  case writeReplyUnpack =>
    obtain ⟨t, hw, rfl, hbytes⟩ := regWrite_viewByte data (hlen ▸ hk) (hlen ▸ hview)
    obtain ⟨u, hu, hchannels⟩ := exec_replyUnpack_of_check_none (s := s.storeIbuf _ _)
      (replyUnpackCheck_eq_none.mpr ⟨hlen, hview⟩)
    exact ⟨_, u, hw, hu, hchannels.trans hbytes⟩
  case packCrcBuf =>
    obtain ⟨t, ht, hoff, hlen, hbytes, -⟩ := exec_replyPack_view s
    obtain ⟨u, hu, hcrc⟩ := exec_crcBuf_of_inside (s := t) (by omega)
    exact ⟨t, u, ht, hu, hcrc.trans (congrArg crc16 hbytes)⟩
  case packEncode =>
    obtain ⟨t, ht, hoff, hlen, hbytes, haddr, hcmd, hout⟩ := exec_replyPack_view s
    obtain ⟨u, hu, hulen, hframe⟩ := exec_encode_of_check_none (s := t)
      (encodeCheck_eq_none.mpr ⟨haddr ▸ ⟨hlo, hhi⟩, by omega, by omega, by rw [hout]; omega⟩)
    have h14 : u.outLen.toNat = 14 := by rw [hulen, hlen]
    rw [h14, hbytes, haddr, hcmd] at hframe
    exact ⟨t, u, ht, hu, h14, hframe⟩

end Sys2Proof.Machine
end

section
/-! PROOFS. The command word (30_encoding.md R80 to R84): OP is its bits [3:0], an operation is its OP value and back, and the other 28
bits are kept by an encoding and passed over by a decoding. -/

namespace Sys2Proof

/-! ### The word as its two fields -/

/-- OP of an encoded word is the operation's code, whatever the ignored bits are (30_encoding.md R80). -/
@[simp] theorem opField_encodeWith (ignored : BitVec 28) (i : Instr) : opField (encodeWith ignored i) = i.opcode :=
  BitVec.extractLsb'_append_eq_right

/-- A word is its bits [31:4] beside its OP (30_encoding.md R80). -/
theorem ignored_append_opField (w : Word) : w.extractLsb' 4 28 ++ opField w = w :=
  calc w.extractLsb' 4 28 ++ w.extractLsb' 0 4
    _ = w.extractLsb' 0 32 := BitVec.extractLsb'_append_extractLsb'_eq_extractLsb' (start₁ := 0) (start₂ := 4) rfl
    _ = w := BitVec.extractLsb'_eq_self

/-- Two words with the same bits [3:0] have the same OP (30_encoding.md R80). -/
theorem opField_eq_of_low_bits {w w' : Word} (h : ∀ k, k < 4 → w.getLsbD k = w'.getLsbD k) : opField w = opField w' := by
  refine BitVec.eq_of_getLsbD_eq fun k hk => ?_
  simp [opField, hk, h k hk]

/-! ### OP values and operations -/

/-- Each of the 16 OP values is the code of the operation it selects: none is shared and none is left over (30_encoding.md R81,
R83). -/
theorem opcode_decodeOp (opv : OpField) : (decodeOp opv).opcode = opv := by
  revert opv
  decide

theorem decode_encodeWith (ignored : BitVec 28) (i : Instr) : decode (encodeWith ignored i) = i := by
  rw [decode, opField_encodeWith, Machine.decodeOp_opcode]

theorem encodeWith_decode (w : Word) : encodeWith (w.extractLsb' 4 28) (decode w) = w := by
  rw [encodeWith, decode, opcode_decodeOp, ignored_append_opField]

/-- Settles O2: the two directions are `decode_encodeWith` and `encodeWith_decode`. -/
theorem decodeEncodeAgree : Obligations.DecodeEncodeAgree := ⟨decode_encodeWith, encodeWith_decode⟩

/-- Settles O1: each word is the encoding of its operation with the ignored bits it is written with. -/
theorem writtenWordsDecode : Obligations.WrittenWordsDecode :=
  ⟨decode_encodeWith 0x0000000#28 .nop, decode_encodeWith 0x0000000#28 .crcBuf, decode_encodeWith 0x0000000#28 .encode,
    decode_encodeWith 0xFFFFFFF#28 .decode, decode_encodeWith 0xA5A5A5A#28 .replyPack,
    decode_encodeWith 0x0000000#28 .reservedC⟩

/-- Settles O3: decoding reads OP alone, and a CTRL write runs what its word decodes to (`regWrite_ctrl`). -/
theorem onlyOpFieldMatters : Obligations.OnlyOpFieldMatters := by
  intro s w w' h
  have hdecode : decode w = decode w' := congrArg decodeOp (opField_eq_of_low_bits h)
  refine ⟨hdecode, ?_⟩
  rw [Machine.regWrite_ctrl, Machine.regWrite_ctrl, hdecode]

end Sys2Proof
end

section
/-! PROOFS. What OBUF holds for the host to transmit stays one whole frame: ENCODE alone writes OUT_LEN and OBUF, and it leaves a frame
or OUT_LEN 0 (30_encoding.md R86, 41_frame_encoder.md R121, 70_reset_and_hazards.md R243). -/

namespace Sys2Proof.Machine

variable {i : Instr} {s t : State}

/-- With OUT_LEN 0 there is nothing to transmit. -/
theorem State.outputIsFrame_of_outLen_zero (h : s.outLen = 0) : s.OutputIsFrame := fun hne => absurd h hne

/-- What the host may transmit is read from OUT_LEN and OBUF only. -/
theorem State.OutputIsFrame.of_same (h : s.OutputIsFrame) (ho : t.outLen = s.outLen) (hb : ObufSame s t) :
    t.OutputIsFrame := by
  unfold State.OutputIsFrame
  rw [ho, funext hb]
  exact h

/-- No operation but ENCODE writes OBUF (10_state.md R36, R40). -/
theorem exec_obufSame_of_ne_encode (hi : i ≠ .encode) (h : exec i s = .next t) : ObufSame s t := by
  rcases exec_same_or_ends h with rfl | ⟨-, rfl⟩ | ⟨c, -, rfl⟩
  case inl => exact fun _ => rfl
  case inr.inl => exact fun _ => obufByte_operationEffect (.inl hi)
  case inr.inr => exact operationFail_obufSame

/-- ENCODE leaves the frame of F_ADDR, F_CMD and the view's bytes, which its checks have made a frame with a valid address and at most
255 payload bytes; or it fails, and OUT_LEN is 0 (41_frame_encoder.md R121). -/
theorem exec_encode_outputIsFrame (h : exec .encode s = .next t) : t.OutputIsFrame := by
  rcases exec_encode_outLen h with ⟨hc, -, -⟩ | ⟨c, -, hzero⟩
  case inr => exact State.outputIsFrame_of_outLen_zero hzero
  case inl =>
    obtain ⟨u, hu, hlen, hframe⟩ := exec_encode_of_check_none hc
    obtain rfl := Host.Outcome.next.inj (hu.symm.trans h)
    obtain ⟨⟨hlo, hhi⟩, hmax, -, -⟩ := encodeCheck_eq_none.mp hc
    have hview : s.viewBytes.length = s.pLen.toNat := readBytes_length _ _ _
    exact fun _ => ⟨s.fAddr, s.fCmd, s.viewBytes, hlo, hhi, hview ▸ hmax, hview ▸ hlen, hframe⟩

theorem exec_keeps_outputIsFrame (hs : s.OutputIsFrame) (h : exec i s = .next t) : t.OutputIsFrame := by
  by_cases hi : i = .encode
  · subst hi
    exact exec_encode_outputIsFrame h
  · exact hs.of_same (exec_outLen_of_ne_encode hi h) (exec_obufSame_of_ne_encode hi h)

/-- Settles O18: of the changes a step can make, an operation keeps the frame, a reset empties OUT_LEN, and no other touches OUT_LEN or
OBUF. -/
theorem stepKeepsOutputFrame : Obligations.StepKeepsOutputFrame := by
  intro s t hs h
  obtain ⟨rest, ans, u, hu, rfl⟩ := step_served h
  have hframe : u.OutputIsFrame := by
    cases hu with
    | same => exact hs
    | register r data => exact hs.of_same (s.writeReg_outLen r data) (s.obufByte_writeReg r data)
    | byte b ha => exact hs.of_same rfl fun _ => rfl
    | command hp hx => exact exec_keeps_outputIsFrame hs hx
    | reset hp => exact State.outputIsFrame_of_outLen_zero rfl
  exact hframe.of_same rfl fun _ => rfl

end Sys2Proof.Machine
end

section
/-! PROOFS. The host's pseudo-statements `loadframe` and `loopback` (30_encoding.md R91, R92): one rule per statement of the notation,
what a run of their byte writes leaves, and the frame in IBUF that both end with. -/

namespace Sys2Proof.Machine

variable {s : State} {rest : List Input}

/-! ### One statement -/

/-- `wb IBUF[i], b` stores the byte, when the buffer has that index (30_encoding.md R91, 20_memory.md R51). -/
theorem step_of_wbIbuf {i : Nat} {b : Byte} (hi : i < 512) (hp : s.port = (Stmt.wbIbuf i b).input :: rest) :
    step s = .next (retire rest none (s.storeIbuf i [b])) := by
  have hidx : (BitVec.ofNat 12 (ibufBase + i)).toNat = 0x200 + i := by
    rw [BitVec.toNat_ofNat, ibufBase_eq]
    omega
  have hbyte : (b.setWidth 32).setWidth 8 = b := by simp
  have hw := regWrite_ibuf_window (idx := BitVec.ofNat 12 (ibufBase + i)) (by omega) (by omega) s (b.setWidth 32)
  rw [hidx, Nat.add_sub_cancel_left, hbyte] at hw
  exact step_of_regWrite hp hw

/-- `wr REG, v` writes the register, unless it is CTRL (30_encoding.md R91, 20_memory.md R51). -/
theorem step_of_wr {r : Reg} {v : Word} (hr : r ≠ .ctrl) (hp : s.port = (Stmt.wr r v).input :: rest) :
    step s = .next (retire rest none (s.writeReg r v)) :=
  step_of_regWrite hp (regWrite_index hr v)

/-- A read answers the host and leaves the block as it is (20_memory.md R52). -/
theorem step_of_read {idx : HostIndex} (hp : s.port = .regRead idx :: rest) :
    ∃ ans, step s = .next (retire rest ans s) :=
  ⟨_, step_of_regRead hp⟩

/-! ### The byte writes -/

/-- Retiring to the inputs that are pending and the answer that stands changes nothing. -/
theorem retire_of_port (hp : s.port = rest) : retire rest s.reply s = s := by
  subst hp
  rfl

/-- The byte writes of a host program store their bytes and leave what is pending behind them (30_encoding.md R92). -/
theorem run_writeIbufFrom (bs : List Byte) : ∀ {a : Nat} {s : State}, a + bs.length ≤ 512 →
    s.port = (writeIbufFrom a bs).map Stmt.input ++ rest →
    ∃ ans, Host.Core.run Sys2Proof.core bs.length s = .next (retire rest ans (s.storeIbuf a bs)) := by
  induction bs with
  | nil => exact fun {a s} _ hp => ⟨s.reply, congrArg Host.Outcome.next (retire_of_port hp).symm⟩
  | cons b bs ih =>
    intro a s ha hp
    rw [List.length_cons] at ha ⊢
    have hwrite := step_of_wbIbuf (by omega) hp
    obtain ⟨ans, hrun⟩ := ih (a := a + 1) (s := retire _ none (s.storeIbuf a [b])) (by omega) rfl
    exact ⟨ans, (run_succ_of_step hwrite).trans hrun⟩

/-- A read and then `wb IBUF[i], b` do to the block what the write alone does (30_encoding.md R91). -/
theorem run_read_wbIbuf {idx : HostIndex} {i : Nat} {b : Byte} (hi : i < 512)
    (hp : s.port = .regRead idx :: (Stmt.wbIbuf i b).input :: rest) :
    Host.Core.run Sys2Proof.core 2 s = .next (retire rest none (s.storeIbuf i [b])) := by
  obtain ⟨ans, hread⟩ := step_of_read hp
  exact (run_succ_of_step hread).trans (run_one (step_of_wbIbuf hi (retire_port s _ ans)))

theorem copyObufFrom_length (s : State) (k : Nat) : ∀ i, (copyObufFrom s i k).length = 2 * k := by
  induction k with
  | zero => exact fun _ => rfl
  | succ k ih => exact fun i => congrArg (· + 2) (ih (i + 1))

/-- The copying part of `loopback` issued in state `issued` stores the OBUF bytes of that state: each read answers the host and leaves
the block as it is, each write stores one byte (30_encoding.md R92; log entries 1, 13). -/
theorem run_copyObufFrom (issued : State) (k : Nat) : ∀ {i : Nat} {s : State}, i + k ≤ 512 →
    s.port = (copyObufFrom issued i k).map Stmt.input ++ rest →
    ∃ ans, Host.Core.run Sys2Proof.core (2 * k) s =
      .next (retire rest ans (s.storeIbuf i (readBytes issued.obufByte i k))) := by
  induction k with
  | zero => exact fun {i s} _ hp => ⟨s.reply, congrArg Host.Outcome.next (retire_of_port hp).symm⟩
  | succ k ih =>
    intro i s hk hp
    have hbyte := run_read_wbIbuf (by omega) hp
    obtain ⟨ans, hrun⟩ := ih (i := i + 1) (s := retire _ none (s.storeIbuf i [issued.obufByte i])) (by omega) rfl
    rw [Nat.mul_succ, Nat.add_comm]
    exact ⟨ans, (run_add 2 (2 * k) hbyte).trans hrun⟩

/-! ### The frame both leave in IBUF -/

/-- The block after a host program has put a frame in IBUF from index 0 and its length in IN_LEN, with nothing left pending. -/
def State.withFrameLoaded (s : State) (bs : List Byte) (len : Word) : State :=
  retire [] none ((s.storeIbuf 0 bs).writeReg .inLen len)

variable {bs : List Byte} {len : Word}

/-- The write of IN_LEN that both pseudo-statements end with, once the bytes are in IBUF. -/
theorem run_wr_inLen (s : State) (ans : Option Word) :
    Host.Core.run Sys2Proof.core 1 (retire [(Stmt.wr .inLen len).input] ans (s.storeIbuf 0 bs)) =
      .next (s.withFrameLoaded bs len) :=
  run_one (step_of_wr (s := retire _ ans (s.storeIbuf 0 bs)) (by decide) rfl)

theorem run_loadframe (s : State) (h : bs.length ≤ 512) :
    Host.Core.run Sys2Proof.core (bs.length + 1) (s.withPort ((loadframe bs).map Stmt.input)) =
      .next (s.withFrameLoaded bs (BitVec.ofNat 32 bs.length)) := by
  rw [loadframe, List.map_append]
  obtain ⟨ans, hbytes⟩ := run_writeIbufFrom bs (by rwa [Nat.zero_add]) (s.withPort_port _)
  exact (run_add bs.length 1 hbytes).trans (run_wr_inLen s ans)

theorem loopback_length (s : State) : (loopback s).length = 2 * s.outLen.toNat + 1 + 1 := by
  simp [loopback, copyObufFrom_length]

theorem run_loopback (s : State) (h : s.outLen.toNat ≤ 512) :
    Host.Core.run Sys2Proof.core (loopback s).length (s.withPort ((loopback s).map Stmt.input)) =
      .next (s.withFrameLoaded (readBytes s.obufByte 0 s.outLen.toNat) (s.outLen.setWidth 32)) := by
  rw [loopback_length, loopback, List.cons_append, List.map_cons, List.map_append]
  obtain ⟨ans, hread⟩ := step_of_read (s.withPort_port _)
  obtain ⟨ans', hcopy⟩ := run_copyObufFrom (s := retire _ ans s) s s.outLen.toNat (by rwa [Nat.zero_add]) rfl
  exact (run_succ_of_step hread).trans ((run_add (2 * s.outLen.toNat) 1 hcopy).trans (run_wr_inLen s ans'))

theorem State.readBytes_withFrameLoaded (s : State) (bs : List Byte) (len : Word) :
    readBytes (s.withFrameLoaded bs len).ibufByte 0 bs.length = bs :=
  State.readBytes_storeIbuf s 0 bs

theorem State.ibufByte_withFrameLoaded_of_ge {a : Nat} (h : bs.length ≤ a) :
    (s.withFrameLoaded bs len).ibufByte a = s.ibufByte a :=
  State.ibufByte_storeIbuf_of_ge s (by omega)

theorem State.withFrameLoaded_inLen : (s.withFrameLoaded bs len).inLen = len.setWidth 16 := rfl

/-- Loading a frame writes no register but IN_LEN. -/
theorem State.withFrameLoaded_regsSame : RegsSame [.inLen] s (s.withFrameLoaded bs len) := by
  intro r hr
  rw [State.withFrameLoaded, State.readReg_retire, State.readReg_writeReg_ne _ (List.ne_of_not_mem_cons hr),
    State.readReg_storeIbuf]

theorem State.withFrameLoaded_obufSame : ObufSame s (s.withFrameLoaded bs len) := fun _ => rfl

/-- Settles O48: the run is `run_loadframe`; a length of at most 512 fits IN_LEN. -/
theorem loadframeLoadsTheFrame : Obligations.LoadframeLoadsTheFrame := by
  intro s bs h
  refine ⟨_, run_loadframe s h, State.readBytes_withFrameLoaded s bs _, ?inLen,
    fun a ha => State.ibufByte_withFrameLoaded_of_ge ha, State.withFrameLoaded_regsSame, State.withFrameLoaded_obufSame⟩
  case inLen =>
    rw [State.withFrameLoaded_inLen, BitVec.toNat_setWidth, BitVec.toNat_ofNat]
    omega

/-- Settles O49: the run is `run_loopback`, which loads the OUT_LEN bytes of OBUF. -/
theorem loopbackCopiesTheOutput : Obligations.LoopbackCopiesTheOutput := by
  intro s h
  refine ⟨_, run_loopback s h, fun a ha => ?copied, ?inLen,
    fun a ha => State.ibufByte_withFrameLoaded_of_ge (by rwa [readBytes_length]), State.withFrameLoaded_regsSame,
    State.withFrameLoaded_obufSame⟩
  case copied =>
    have hrun := State.readBytes_withFrameLoaded s (readBytes s.obufByte 0 s.outLen.toNat) (s.outLen.setWidth 32)
    have hbyte := (readBytes_eq_iff rfl).mp hrun a (by rwa [readBytes_length])
    rwa [readBytes_getElem, Nat.zero_add] at hbyte
  case inLen =>
    rw [State.withFrameLoaded_inLen]
    simp

end Sys2Proof.Machine
end

section
/-! PROOFS. The checksum function (40_checksum.md R100, R101): it is linear over XOR, so a byte's turn of the register is a shift by 8 and
one value that depends on a byte only. -/

namespace Sys2Proof.Machine

/-! ### Linearity -/

/-- One turn of the loop as a shift and the constant that the bit shifted out selects (40_checksum.md R100). -/
theorem crcShift_eq (r : Half) : crcShift r = (r >>> 1) ^^^ bif r.getLsbD 0 then crcPolyR else 0 := by
  unfold crcShift
  cases r.getLsbD 0 <;> simp

theorem crcShift_xor (x y : Half) : crcShift (x ^^^ y) = crcShift x ^^^ crcShift y := by
  have hselect (a b : Bool) : (bif a ^^ b then crcPolyR else 0) =
      (bif a then crcPolyR else 0) ^^^ (bif b then crcPolyR else 0) := by revert a b; decide
  rw [crcShift_eq, crcShift_eq, crcShift_eq, BitVec.ushiftRight_xor_distrib, BitVec.getLsbD_xor, hselect]
  ac_rfl

theorem crcShifts_xor (n : Nat) : ∀ x y : Half, crcShifts n (x ^^^ y) = crcShifts n x ^^^ crcShifts n y := by
  induction n with
  | zero => exact fun _ _ => rfl
  | succ n ih =>
    intro x y
    rw [crcShifts, crcShift_xor, ih]
    rfl

/-- Settles O21: the byte enters by XOR, and every turn of the loop is linear (`crcShifts_xor`). -/
theorem crcStepIsLinear : Obligations.CrcStepIsLinear := by
  intro r r' b b'
  calc crcShifts 8 (r ^^^ r' ^^^ (b ^^^ b').setWidth 16)
    _ = crcShifts 8 ((r ^^^ b.setWidth 16) ^^^ (r' ^^^ b'.setWidth 16)) := by
      rw [BitVec.setWidth_xor]
      ac_rfl
    _ = crcStep r b ^^^ crcStep r' b' := crcShifts_xor 8 _ _

/-! ### The byte at a time -/

/-- As long as only zeros are shifted out, the constant never enters. -/
theorem crcShifts_of_low_bits_zero (n : Nat) : ∀ {x : Half}, (∀ k, k < n → x.getLsbD k = false) →
    crcShifts n x = x >>> n := by
  induction n with
  | zero => exact fun {x} _ => rfl
  | succ n ih =>
    intro x hx
    have hturn : crcShift x = x >>> 1 := by
      rw [crcShift_eq, hx 0 (by omega), cond_false, BitVec.ofNat_eq_ofNat, BitVec.xor_zero]
    have hlow : ∀ k, k < n → (x >>> 1).getLsbD k = false := by
      intro k hk
      rw [BitVec.getLsbD_ushiftRight]
      exact hx (1 + k) (by omega)
    rw [crcShifts, hturn, ih hlow, ← BitVec.shiftRight_add, Nat.add_comm]

/-- The register as its high byte in place and its low byte. -/
theorem half_eq_high_xor_low (r : Half) : r = ((r >>> 8) <<< 8) ^^^ (lowByte r).setWidth 16 := by
  refine BitVec.eq_of_getLsbD_eq fun i hi => ?_
  by_cases h8 : i < 8
  · simp [lowByte, h8, hi]
  · simp [lowByte, h8, hi, show 8 + (i - 8) = i by omega]

/-- The step of a table-driven implementation: the high byte moves down unchanged, and the low byte and the input byte act through their
XOR only. -/
theorem crcStep_eq_shift_xor (r : Half) (b : Byte) : crcStep r b = (r >>> 8) ^^^ crcStep 0x0000#16 (lowByte r ^^^ b) := by
  have hhigh : crcShifts 8 ((r >>> 8) <<< 8) = r >>> 8 := by
    rw [crcShifts_of_low_bits_zero 8 fun k hk => by simp [hk]]
    refine BitVec.eq_of_getLsbD_eq fun i hi => ?_
    by_cases h8 : 8 + i < 16
    · simp [h8]
    · simp [h8, BitVec.getLsbD_of_ge r (8 + i) (by omega)]
  calc crcShifts 8 (r ^^^ b.setWidth 16)
    _ = crcShifts 8 (((r >>> 8) <<< 8) ^^^ (0x0000#16 ^^^ (lowByte r ^^^ b).setWidth 16)) := by
      conv_lhs => rw [half_eq_high_xor_low r]
      rw [BitVec.setWidth_xor, BitVec.zero_xor, BitVec.xor_assoc]
    _ = (r >>> 8) ^^^ crcStep 0x0000#16 (lowByte r ^^^ b) := by rw [crcShifts_xor, hhigh, crcStep]

/-- Feeding the register its own low byte shifts that byte out and brings nothing in. -/
theorem crcStep_lowByte (r : Half) : crcStep r (lowByte r) = r >>> 8 := by
  have hzero : crcStep 0x0000#16 0x00#8 = 0x0000#16 := crcShifts_of_low_bits_zero 8 fun _ _ => by simp
  rw [crcStep_eq_shift_xor, BitVec.xor_self, hzero, BitVec.xor_zero]

/-- The high byte is the low byte once it has moved down. -/
theorem lowByte_ushiftRight_eight (r : Half) : lowByte (r >>> 8) = highByte r := by
  refine BitVec.eq_of_getLsbD_eq fun i hi => ?_
  simp [lowByte, highByte, hi]

/-! ### Sequences -/

/-- The checksum of a sequence goes on from the checksum of its first part (40_checksum.md R101). -/
theorem crc16_append (p q : List Byte) : crc16 (p ++ q) = crcFrom (crc16 p) q := List.foldl_append

/-- A register fed its own two bytes, low byte first, is empty. -/
theorem crcFrom_halfBytes_self (r : Half) : crcFrom r (halfBytes r) = 0 :=
  calc crcStep (crcStep r (lowByte r)) (highByte r)
    _ = (r >>> 8) >>> 8 := by rw [crcStep_lowByte, ← lowByte_ushiftRight_eight, crcStep_lowByte]
    _ = r >>> 16 := (BitVec.shiftRight_add r 8 8).symm
    _ = 0 := BitVec.ushiftRight_eq_zero (by omega)

/-- Settles O22: what the checksum of the sequence leaves in the register is fed back to it (`crcFrom_halfBytes_self`). -/
theorem checksumOfSequenceWithItsChecksumIsZero : Obligations.ChecksumOfSequenceWithItsChecksumIsZero := by
  intro p
  exact (crc16_append p (halfBytes (crc16 p))).trans (crcFrom_halfBytes_self _)

/-- Settles O19: the concatenation is `crc16_append`; the two orders are evaluated (V-CRC-7). -/
theorem crc16Properties : Obligations.Crc16Properties := by
  have horder : crc16 [0x01#8, 0x03#8] ≠ crc16 [0x03#8, 0x01#8] := by decide +kernel
  exact ⟨rfl, crc16_append, horder⟩

/-- Settles O20: S1 is the start value of the register; S2 and S3 are evaluated. -/
theorem crc16WorkedExamples : Obligations.Crc16WorkedExamples := by
  have hpoll : crc16 [0x03#8, 0x01#8, 0x00#8] = 0x5080#16 := by decide +kernel
  have hreply : crc16 [0x03#8, 0x02#8, 0x08#8, 0xEB#8, 0x00#8, 0xC6#8, 0x00#8, 0xFF#8, 0x7F#8, 0xFF#8, 0x7F#8] =
      0xEB90#16 := by decide +kernel
  exact ⟨rfl, hpoll, hreply⟩

/-! ### The fixed points of the byte 0x00 -/

theorem half_eq_iff_bytes (r v : Half) : r = v ↔ highByte r = highByte v ∧ lowByte r = lowByte v := by
  refine ⟨fun h => h ▸ ⟨rfl, rfl⟩, fun ⟨hhigh, hlow⟩ => ?_⟩
  rw [← bytesHalf_lowByte_highByte r, ← bytesHalf_lowByte_highByte v, hhigh, hlow]

/-- What has moved down by 8 is out of the high byte. -/
theorem highByte_ushiftRight_eight_xor (r v : Half) : highByte ((r >>> 8) ^^^ v) = highByte v := by
  refine BitVec.eq_of_getLsbD_eq fun i hi => ?_
  simp [highByte, hi, BitVec.getLsbD_of_ge r (8 + (8 + i)) (by omega)]

theorem lowByte_ushiftRight_eight_xor (r v : Half) : lowByte ((r >>> 8) ^^^ v) = highByte r ^^^ lowByte v := by
  rw [← lowByte_ushiftRight_eight]
  exact BitVec.extractLsb'_xor

/-- A register that the byte 0x00 leaves as it is: its high byte is the one its low byte brings in, and its low byte is the XOR of that
high byte with the low byte brought in. -/
theorem crcStep_zero_eq_self_iff (r : Half) : crcStep r 0x00#8 = r ↔
    highByte r = highByte (crcStep 0x0000#16 (lowByte r)) ∧
      lowByte r = highByte r ^^^ lowByte (crcStep 0x0000#16 (lowByte r)) := by
  rw [eq_comm, crcStep_eq_shift_xor, BitVec.xor_zero, half_eq_iff_bytes, highByte_ushiftRight_eight_xor,
    lowByte_ushiftRight_eight_xor]

/-- Of the 256 low bytes, two agree with the high byte and the low byte they bring in. -/
theorem crcStep_lowByte_selfConsistent : ∀ l : Byte,
    l = highByte (crcStep 0x0000#16 l) ^^^ lowByte (crcStep 0x0000#16 l) → l = 0x00#8 ∨ l = 0x01#8 := by
  decide +kernel

/-- The low byte of a fixed point is 0x00 or 0x01, and it brings in the high byte (40_checksum.md R103). -/
theorem crcStep_zero_fixedPoints (r : Half) : crcStep r 0x00#8 = r ↔ r = 0x0000#16 ∨ r = 0xC001#16 := by
  constructor
  · intro h
    obtain ⟨hhigh, hlow⟩ := (crcStep_zero_eq_self_iff r).mp h
    rw [hhigh] at hlow
    have hr : r = bytesHalf (lowByte r) (highByte (crcStep 0x0000#16 (lowByte r))) := by
      rw [← hhigh, bytesHalf_lowByte_highByte]
    rcases crcStep_lowByte_selfConsistent _ hlow with hl | hl <;> rw [hl] at hr
    · exact .inl (hr.trans (by decide +kernel))
    · exact .inr (hr.trans (by decide +kernel))
  · rintro (rfl | rfl)
    · exact crcStep_lowByte 0x0000#16
    · decide +kernel

end Sys2Proof.Machine
end

section
/-! PROOFS. The three operations of checksum_gen (40_checksum.md R102 to R105): their codes, results and frames, and the agreement of
byte-serial accumulation with CRC_BUF. -/

namespace Sys2Proof.Machine

variable {i : Instr} {s t : State} {c : FailCode} {rest : List Input}

/-! ### Codes and frames of operations -/

/-- A CTRL write runs the operation whose code stands in bits [3:0] of the word (30_encoding.md R80 to R82). -/
theorem hasCode_opcode (i : Instr) : HasCode i.opcode.toNat i := by
  intro s data hdata
  have hop : opField data = i.opcode := BitVec.eq_of_toNat_eq (by simpa [opField] using hdata)
  have hdecode : decode data = i := by rw [decode, hop, decodeOp_opcode]
  exact (regWrite_ctrl data).trans (congrArg (exec · s) hdecode)

theorem OnlyRegsChange.mono {changed changed' : List Reg} (h : OnlyRegsChange changed s t)
    (hsub : changed ⊆ changed') : OnlyRegsChange changed' s t := by
  obtain ⟨hregs, hothers⟩ := h
  exact ⟨fun r hr => hregs r fun hm => hr (hsub hm), hothers⟩

/-- The frame of a success, for the operations that store to neither buffer (10_state.md R40). -/
theorem finishOk_operationEffect_onlyRegsChange (hi : i ≠ .nop) (hp : i ≠ .replyPack) (he : i ≠ .encode) :
    OnlyRegsChange (regsWrittenOnSuccess i) s ((operationEffect i s).finishOk i.opcode) :=
  ⟨finishOk_operationEffect_regsSame hi, fun _ => ibufByte_operationEffect (.inl hp),
    fun _ => obufByte_operationEffect (.inl he), operationEffect_modelSame⟩

/-- The frame of a failure (10_state.md R40, 60_exceptions.md R204). -/
theorem operationFail_onlyRegsChange (hi : i ≠ .nop) :
    OnlyRegsChange (regsWrittenOnFailure i) s (operationFail i s c) :=
  ⟨operationFail_regsSame hi, operationFail_ibufSame, operationFail_obufSame, operationFail_modelSame⟩

/-! ### CRC_INIT, CRC_BYTE, CRC_BUF -/

/-- A success of one of the three writes CRC_ACC and STATUS only (40_checksum.md R102 to R104). -/
theorem checksumOperation_frame (hi : i ∈ [Instr.crcInit, .crcByte, .crcBuf]) :
    OnlyRegsChange [.crcAcc, .status] s ((operationEffect i s).finishOk i.opcode) := by
  simp only [List.mem_cons, List.not_mem_nil, or_false] at hi
  rcases hi with rfl | rfl | rfl <;>
    exact (finishOk_operationEffect_onlyRegsChange (by decide) (by decide) (by decide)).mono (by decide)

theorem exec_crcInit (s : State) : exec .crcInit s = .next ((s.setCrcAcc 0xFFFF).finishOk 0x1) := rfl

theorem exec_crcByte (s : State) :
    exec .crcByte s = .next ((s.setCrcAcc (crcStep s.crcAcc s.crcDin)).finishOk 0x2) := rfl

/-- Settles O23: code and frame are the general ones, and a second CRC_INIT writes what stands there already. -/
theorem crcInitResult : Obligations.CrcInitResult := by
  exact ⟨hasCode_opcode .crcInit, fun s => ⟨_, exec_crcInit s, rfl, rfl,
    checksumOperation_frame (i := .crcInit) (by decide), rfl⟩⟩

/-- Settles O24: CRC_DIN is in the frame, so the second CRC_BYTE finds it; the fixed points are `crcStep_zero_fixedPoints`. -/
theorem crcByteResult : Obligations.CrcByteResult := by
  exact ⟨hasCode_opcode .crcByte, fun s => ⟨_, exec_crcByte s, rfl, rfl,
    checksumOperation_frame (i := .crcByte) (by decide), _, exec_crcByte _, rfl⟩, crcStep_zero_fixedPoints⟩

/-- Settles O25: the one check decides between the effect and RANGE (`crcBufCheck_eq_none`, `crcBufCheck_eq_some`). -/
theorem crcBufResult : Obligations.CrcBufResult := by
  refine ⟨hasCode_opcode .crcBuf, fun s hinside => ?inside, fun s hpast => ?past⟩
  case inside =>
    exact ⟨_, execCrcBuf_of_none (crcBufCheck_eq_none.mpr hinside), rfl, rfl,
      checksumOperation_frame (i := .crcBuf) (by decide)⟩
  case past =>
    exact ⟨_, execCrcBuf_of_some (crcBufCheck_eq_some.mpr ⟨hpast, rfl⟩), rfl,
      operationFail_onlyRegsChange (i := .crcBuf) (by decide)⟩

/-! ### Byte-serial accumulation -/

/-- `op NAME` runs the operation (30_encoding.md R91). -/
theorem step_of_op (hp : s.port = (Stmt.op i).input :: rest) (h : exec i s = .next t) :
    step s = .next (retire rest none t) := by
  have hdecode : decode (encode i) = i := decode_encodeWith 0 i
  exact step_of_regWrite hp ((regWrite_ctrl (encode i)).trans (by rw [hdecode, h]))

/-- `crcfeed b` feeds b into CRC_ACC: CRC_DIN holds the byte when CRC_BYTE reads it (30_encoding.md R92, 40_checksum.md R103). -/
theorem run_crcfeed {b : Byte} (hp : s.port = (crcfeed b).map Stmt.input ++ rest) :
    ∃ t, Host.Core.run Sys2Proof.core 2 s = .next t ∧ t.port = rest ∧ t.crcAcc = crcStep s.crcAcc b := by
  have hbyte : (b.setWidth 32).setWidth 8 = b := by simp
  have hwrite := step_of_wr (by decide) hp
  have hfeed := step_of_op (rest := rest) (s := retire _ none (s.writeReg .crcDin (b.setWidth 32))) rfl (exec_crcByte _)
  exact ⟨_, (run_succ_of_step hwrite).trans (run_one hfeed), rfl, congrArg (crcStep s.crcAcc) hbyte⟩

/-- One `crcfeed` per byte runs `crc_step` over the sequence, from what CRC_ACC holds. -/
theorem run_crcfeeds (bs : List Byte) : ∀ {s : State}, s.port = (bs.flatMap crcfeed).map Stmt.input →
    ∃ t, Host.Core.run Sys2Proof.core (2 * bs.length) s = .next t ∧ t.crcAcc = crcFrom s.crcAcc bs := by
  induction bs with
  | nil => exact fun {s} _ => ⟨s, rfl, rfl⟩
  | cons b bs ih =>
    intro s hp
    obtain ⟨u, hfeed, hport, hacc⟩ := run_crcfeed (s := s) (b := b) hp
    obtain ⟨t, hrun, hcrc⟩ := ih hport
    refine ⟨t, ?_, hcrc.trans (congrArg (crcFrom · bs) hacc)⟩
    rw [List.length_cons, Nat.mul_succ, Nat.add_comm]
    exact (run_add 2 (2 * bs.length) hfeed).trans hrun

/-- Settles O26: the run is CRC_INIT and then `run_crcfeeds`; CRC_BUF on the same bytes is `exec_crcBuf_of_inside`. -/
theorem streamingChecksumEqualsOneShot : Obligations.StreamingChecksumEqualsOneShot := by
  intro s bs
  have hinit := step_of_op (s.withPort_port ((Stmt.op .crcInit :: bs.flatMap crcfeed).map Stmt.input)) (exec_crcInit _)
  obtain ⟨t, hfeeds, hcrc⟩ := run_crcfeeds bs (retire_port _ _ none)
  refine ⟨t, (run_add 1 (2 * bs.length) (run_one hinit)).trans hfeeds, hcrc, fun u hinside hbytes => ?_⟩
  obtain ⟨v, hv, hacc⟩ := exec_crcBuf_of_inside hinside
  exact ⟨v, hv, hacc.trans ((congrArg crc16 hbytes).trans hcrc.symm)⟩

end Sys2Proof.Machine
end

section
/-! PROOFS. frame_encoder (41_frame_encoder.md R121 to R131): what ENCODE and REPLY_PACK write, and that DECODE and REPLY_UNPACK
take it back. -/

namespace Sys2Proof.Machine

variable {i : Instr} {s t : State} {c : FailCode} {a cmd : Byte} {p : List Byte}

/-! ### A frame standing in a buffer -/

/-- Two equal runs of bytes agree byte by byte, wherever they begin. -/
theorem readBytes_byte_eq {buf buf' : Nat → Byte} {x y n : Nat} (h : readBytes buf x n = readBytes buf' y n) {k : Nat}
    (hk : k < n) : buf (x + k) = buf' (y + k) := by
  have hbyte := (readBytes_eq_iff (by simp)).mp h k (by simpa using hk)
  rwa [readBytes_getElem] at hbyte

/-- A buffer that begins with a frame holds the frame's fields at their places (30_encoding.md R86). -/
theorem frame_fields {buf : Nat → Byte} {n : Nat} (hp : p.length = n)
    (h : readBytes buf 0 (6 + n) = frameBytes a cmd p) :
    buf 0 = 0x01#8 ∧ buf 1 = a ∧ buf 2 = cmd ∧ buf 3 = BitVec.ofNat 8 n ∧ readBytes buf 4 n = p ∧
      buf (4 + n) = lowByte (frameCrc a cmd p) ∧ buf (5 + n) = highByte (frameCrc a cmd p) := by
  subst hp
  have hat : ∀ {k : Nat} {b : Byte}, (frameBytes a cmd p)[k]? = some b → buf k = b := by
    intro k b hk
    rw [← h, readBytes_getElem?] at hk
    split at hk
    · simpa using hk
    · cases hk
  obtain ⟨h0, h1, h2, h3⟩ := frameBytes_head a cmd p
  obtain ⟨hlow, hhigh⟩ := frameBytes_crc a cmd p
  exact ⟨hat h0, hat h1, hat h2, hat h3, (readBytes_eq_iff rfl).mpr fun k hk => hat (frameBytes_payload a cmd p hk),
    hat hlow, hat hhigh⟩

/-- DECODE's checks pass on a frame with a valid address and at most 255 payload bytes, and the length byte is the payload's length
(42_frame_decoder.md R151). -/
theorem decodeCheck_of_frame (ha : validAddress a) (hp : p.length ≤ 255) (hlen : s.inLen.toNat = 6 + p.length)
    (h : readBytes s.ibufByte 0 s.inLen.toNat = frameBytes a cmd p) :
    decodeCheck s = none ∧ s.declaredLen = p.length := by
  rw [hlen] at h
  obtain ⟨h0, h1, h2, h3, hpayload, hlow, hhigh⟩ := frame_fields rfl h
  have hdeclared : s.declaredLen = p.length := by
    rw [State.declaredLen, h3, BitVec.toNat_ofNat]
    omega
  have hcovered : readBytes s.ibufByte 1 (3 + p.length) = [a, cmd, BitVec.ofNat 8 p.length] ++ p := by
    rw [readBytes_append, hpayload, ← h1, ← h2, ← h3]
    rfl
  have hcrc : s.inboundCrc p.length = s.ibufHalf (4 + p.length) := by
    rw [State.ibufHalf, show 4 + p.length + 1 = 5 + p.length by omega, hlow, hhigh, bytesHalf_lowByte_highByte]
    exact congrArg crc16 hcovered
  exact ⟨decodeCheck_eq_none.mpr ⟨by omega, h0, by omega, hdeclared.symm ▸ hcrc, h1.symm ▸ ha⟩, hdeclared⟩

/-! ### ENCODE -/

/-- An ENCODE that leaves OK = 1 passed its checks and left the frame of its operands (41_frame_encoder.md R122). -/
theorem exec_encode_of_ok (h : exec .encode s = .next t) (hok : t.status.getLsbD 0 = true) :
    encodeCheck s = none ∧ t.outLen.toNat = 6 + s.pLen.toNat ∧
      readBytes t.obufByte 0 t.outLen.toNat = frameBytes s.fAddr s.fCmd s.viewBytes := by
  rcases exec_encode_outLen h with ⟨hc, -, -⟩ | ⟨c, hst, -⟩
  case inl =>
    obtain ⟨u, hu, hframe⟩ := exec_encode_of_check_none hc
    obtain rfl := Host.Outcome.next.inj (hu.symm.trans h)
    exact ⟨hc, hframe⟩
  case inr => simp [hst] at hok

/-- The one outcome of every failing ENCODE, with the code of the check it fails (41_frame_encoder.md R121). -/
theorem exec_encode_of_check_some (hc : encodeCheck s = some c) :
    ∃ t, exec .encode s = .next t ∧ t.status = statusWord 0x4 c.code 0 ∧ t.outLen = 0 ∧
      OnlyRegsChange [.status, .outLen] s t :=
  ⟨_, exec_of_check_some hc, operationFail_status, rfl, operationFail_onlyRegsChange (i := .encode) (by decide)⟩

/-- What a successful ENCODE leaves as it was (41_frame_encoder.md R121). -/
theorem exec_encode_frame (hc : encodeCheck s = none) (h : exec .encode s = .next t) :
    t.status = 0x401#12 ∧ (∀ x, 6 + s.pLen.toNat ≤ x → t.obufByte x = s.obufByte x) ∧
      RegsSame [.status, .outLen] s t ∧ IbufSame s t ∧ ModelSame s t := by
  obtain rfl := Host.Outcome.next.inj ((exec_of_check_none (i := .encode) (by decide) hc).symm.trans h)
  exact ⟨rfl, fun _ hx => obufByte_operationEffect (.inr hx), finishOk_operationEffect_regsSame (i := .encode) (by decide),
    fun _ => ibufByte_operationEffect (.inl (by decide)), operationEffect_modelSame⟩

/-- "0 and ≥248 reserved/invalid" (30_encoding.md R88). -/
theorem not_validAddress_of_zero_or_gt (h : a = 0 ∨ 247 < a.toNat) : ¬ validAddress a := by
  rintro ⟨hlo, hhi⟩
  rcases h with rfl | h
  · exact absurd hlo (by decide)
  · exact absurd hhi (Nat.not_le.mpr h)

/-- Settles O27: on success the bytes are the fields of the frame in OBUF (`frame_fields`); each failing clause is the case of
`encodeCheck_eq_some` with its code. -/
theorem encodeResult : Obligations.EncodeResult := by
  refine ⟨hasCode_opcode .encode, fun s n crc hn hcrc hlo hhi hmax hview hcap => ?success, fun s haddr => ?address,
    fun s hlo hhi hlong => ?length, fun s hlo hhi hmax hpast => ?range, fun s hlo hhi hmax hview hcap => ?capacity⟩
  case success =>
    subst hn
    have hc : encodeCheck s = none := encodeCheck_eq_none.mpr ⟨⟨hlo, hhi⟩, hmax, hview, hcap⟩
    have hviewLen : s.viewBytes.length = s.pLen.toNat := readBytes_length _ _ _
    have hframeCrc : frameCrc s.fAddr s.fCmd s.viewBytes = crc := by
      rw [frameCrc, hviewLen, hcrc]
      rfl
    obtain ⟨t, ht, hlen, hframe⟩ := exec_encode_of_check_none hc
    obtain ⟨hst, hrest, hregs, hibuf, hmodel⟩ := exec_encode_frame hc ht
    rw [hlen] at hframe
    obtain ⟨h0, h1, h2, h3, hpayload, hlow, hhigh⟩ := frame_fields hviewLen hframe
    rw [hframeCrc] at hlow hhigh
    have hN : (t.obufByte 3).toNat = s.pLen.toNat := by
      rw [h3, BitVec.toNat_ofNat]
      omega
    exact ⟨t, ht, hst, hlen, h0, h1, h2, hN, fun k => readBytes_byte_eq hpayload, hlow, hhigh, hrest, hregs, hibuf, hmodel⟩
  case address => exact exec_encode_of_check_some (encodeCheck_eq_some.mpr (.inl ⟨not_validAddress_of_zero_or_gt haddr, rfl⟩))
  case length => exact exec_encode_of_check_some (encodeCheck_eq_some.mpr (.inr (.inl ⟨⟨hlo, hhi⟩, hlong, rfl⟩)))
  case range =>
    exact exec_encode_of_check_some (encodeCheck_eq_some.mpr (.inr (.inr (.inl ⟨⟨hlo, hhi⟩, hmax, hpast, rfl⟩))))
  case capacity =>
    exact exec_encode_of_check_some
      (encodeCheck_eq_some.mpr (.inr (.inr (.inr ⟨⟨hlo, hhi⟩, hmax, hview, hcap, rfl⟩))))

/-- Settles O28: the view's bytes are by definition the range of IBUF that the statement names. -/
theorem encodedBytesAreTheFrame : Obligations.EncodedBytesAreTheFrame := by
  intro s t h hok
  obtain ⟨-, -, hframe⟩ := exec_encode_of_ok h hok
  exact hframe

/-- Settles O30: the copy is the frame of ENCODE's operands, on which DECODE's checks pass (`decodeCheck_of_frame`), and DECODE exposes the
frame's fields. -/
theorem encodeThenDecodeRoundTrip : Obligations.EncodeThenDecodeRoundTrip := by
  intro s t u h hok hcopy hin
  obtain ⟨hc, hlen, hframe⟩ := exec_encode_of_ok h hok
  obtain ⟨haddr, hmax, -, -⟩ := encodeCheck_eq_none.mp hc
  have hviewLen : s.viewBytes.length = s.pLen.toNat := readBytes_length _ _ _
  have hcopied : readBytes u.ibufByte 0 u.inLen.toNat = frameBytes s.fAddr s.fCmd s.viewBytes := by
    rw [hin, ← hframe]
    exact readBytes_congr fun k hk => by simpa using hcopy k hk
  have hinLen : u.inLen.toNat = 6 + s.viewBytes.length := by rw [hin, hlen, hviewLen]
  obtain ⟨hcheck, hdeclared⟩ := decodeCheck_of_frame haddr (hviewLen ▸ hmax) hinLen hcopied
  rw [hinLen, hviewLen] at hcopied
  obtain ⟨-, h1, h2, -, hpayload, -, -⟩ := frame_fields hviewLen hcopied
  refine ⟨_, execDecode_of_none hcheck, rfl, h1, h2, rfl, ?_, fun k => readBytes_byte_eq hpayload⟩
  show BitVec.ofNat 9 u.declaredLen = s.pLen
  rw [hdeclared, hviewLen, BitVec.ofNat_toNat, BitVec.setWidth_eq]

/-! ### REPLY_PACK -/

/-- Settles O31: the eight bytes are the run just stored, read off one by one; the rest is the frame of a success. -/
theorem replyPackResult : Obligations.ReplyPackResult := by
  refine ⟨hasCode_opcode .replyPack, fun s => ⟨_, exec_of_check_none (i := .replyPack) (by decide) rfl, ?_⟩⟩
  have hbytes : readBytes (s.storeIbuf 0 (replyBytes s.ch0 s.ch1 s.ch2 s.ch3)).ibufByte 0 8 =
      replyBytes s.ch0 s.ch1 s.ch2 s.ch3 := State.readBytes_storeIbuf s 0 _
  simp only [readBytes, replyBytes_eq, List.cons.injEq, and_true] at hbytes
  obtain ⟨h0, h1, h2, h3, h4, h5, h6, h7⟩ := hbytes
  exact ⟨h0, h1, h2, h3, h4, h5, h6, h7, rfl, rfl, rfl, fun _ ha => ibufByte_operationEffect (.inr ha),
    fun r hr => finishOk_operationEffect_regsSame (i := .replyPack) (by decide) r
      fun hm => hr ((by decide : regsWrittenOnSuccess .replyPack ⊆ [.pOff, .pLen, .status]) hm),
    fun _ => obufByte_operationEffect (.inl (by decide)), operationEffect_modelSame⟩

/-- A reply payload determines its four channels (30_encoding.md R90). -/
theorem replyBytes_injective {v0 v1 v2 v3 w0 w1 w2 w3 : Half} (h : replyBytes v0 v1 v2 v3 = replyBytes w0 w1 w2 w3) :
    v0 = w0 ∧ v1 = w1 ∧ v2 = w2 ∧ v3 = w3 := by
  simp only [replyBytes_eq, List.cons.injEq, and_true] at h
  obtain ⟨hl0, hh0, hl1, hh1, hl2, hh2, hl3, hh3⟩ := h
  simp only [half_eq_iff_bytes, hl0, hh0, hl1, hh1, hl2, hh2, hl3, hh3, and_self]

/-- An operation whose checks pass reports success under its own code (10_state.md R22). -/
theorem exec_status_of_check_none (hi : i ≠ .nop) (hc : operationCheck i s = none) (h : exec i s = .next t) :
    t.status = statusWord i.opcode 0 1 := by
  obtain rfl := Host.Outcome.next.inj ((exec_of_check_none hi hc).symm.trans h)
  rfl

/-- Settles O32: the channels REPLY_UNPACK leaves pack to the bytes that REPLY_PACK left in the view, so they are the channels it packed. -/
theorem replyPackThenUnpack : Obligations.ReplyPackThenUnpack := by
  intro s t u h hbytes hoff hlen
  obtain ⟨t', ht', hoff0, hlen8, hpacked, -⟩ := exec_replyPack_view s
  obtain rfl := Host.Outcome.next.inj (ht'.symm.trans h)
  have hc : replyUnpackCheck u = none := replyUnpackCheck_eq_none.mpr (by rw [hoff, hlen]; omega)
  have hview : u.viewBytes = t'.viewBytes := by
    simp only [State.viewBytes, State.viewStart, State.viewLen, hoff, hlen, hoff0, hlen8]
    exact readBytes_congr fun k hk => by simpa using hbytes k hk
  obtain ⟨v, hv, hchannels⟩ := exec_replyUnpack_of_check_none hc
  exact ⟨v, hv, exec_status_of_check_none (i := .replyUnpack) (by decide) hc hv,
    replyBytes_injective (hchannels.trans (hview.trans hpacked))⟩

end Sys2Proof.Machine
end

section
/-! PROOFS. frame_decoder (42_frame_decoder.md R151 to R160): what DECODE and REPLY_UNPACK answer, what DECODE's answer depends on, and
that a flipped bit of a frame's checksum is noticed. -/

namespace Sys2Proof.Machine

variable {i : Instr} {s s' t : State} {c : FailCode}

/-! ### The two ends of DECODE and REPLY_UNPACK -/

/-- The one outcome of every failure but ENCODE's: STATUS shows the code, and nothing else changes (60_exceptions.md R204). -/
theorem exec_fails (he : i ≠ .encode) (hc : operationCheck i s = some c) :
    ∃ t, exec i s = .next t ∧ t.status = statusWord i.opcode c.code 0 ∧ OnlyRegsChange [.status] s t := by
  have hi : i ≠ .nop := by rintro rfl; cases hc
  have hwritten : regsWrittenOnFailure i = [.status] := by cases i <;> first | rfl | contradiction
  exact ⟨_, exec_of_check_some hc, operationFail_status, hwritten ▸ operationFail_onlyRegsChange hi⟩

/-- The one outcome of every failing DECODE, with the code of the check it fails (42_frame_decoder.md R151). -/
theorem exec_decode_fails (hc : decodeCheck s = some c) :
    ∃ t, exec .decode s = .next t ∧ t.status = statusWord 0x5 c.code 0 ∧ OnlyRegsChange [.status] s t :=
  exec_fails (by decide) hc

theorem declaredLen_lt (s : State) : s.declaredLen < 256 := (s.ibufByte 3).isLt

/-- P_LEN after a successful DECODE: the declared length, which fits its 9 bits (42_frame_decoder.md R151). -/
theorem decode_pLen_toNat : (operationEffect .decode s).pLen.toNat = s.declaredLen := by
  have hlt := declaredLen_lt s
  show (BitVec.ofNat 9 s.declaredLen).toNat = s.declaredLen
  rw [BitVec.toNat_ofNat]
  omega

/-- A DECODE that leaves OK = 1 passed its checks and had its effect, P_LEN the declared length (42_frame_decoder.md R151). -/
theorem exec_decode_of_ok (h : exec .decode s = .next t) (hok : t.status.getLsbD 0 = true) :
    decodeCheck s = none ∧ t = (operationEffect .decode s).finishOk 0x5 ∧ t.pLen.toNat = s.declaredLen := by
  rcases exec_ends (by decide) h with ⟨hc, rfl⟩ | ⟨c, -, rfl⟩
  case inl => exact ⟨hc, rfl, decode_pLen_toNat⟩
  case inr => simp at hok

/-- The received checksum as the source writes it, `lo OR (hi << 8)` (42_frame_decoder.md R151). -/
theorem receivedCrc_eq_ibufHalf (s : State) (n : Nat) :
    (s.ibufByte (4 + n)).setWidth 16 ||| ((s.ibufByte (5 + n)).setWidth 16 <<< 8) = s.ibufHalf (4 + n) := by
  rw [State.ibufHalf, bytesHalf_eq_or, show 4 + n + 1 = 5 + n by omega]

/-- Settles O34: each clause is one case of `decodeCheck_eq_none` or `decodeCheck_eq_some`. -/
theorem decodeResult : Obligations.DecodeResult := by
  refine ⟨hasCode_opcode .decode, fun s n hn hlen h0 hfits hcrc hlo hhi => ?success, fun s hshort => ?short,
    fun s hlen h0 => ?sentinel, fun s hlen h0 hne => ?length, fun s n hn hlen h0 hfits hcrc => ?checksum,
    fun s n hn hlen h0 hfits hcrc haddr => ?address⟩
  case success =>
    subst hn
    have hc : decodeCheck s = none :=
      decodeCheck_eq_none.mpr ⟨hlen, h0, hfits, hcrc.trans (receivedCrc_eq_ibufHalf s _), hlo, hhi⟩
    exact ⟨_, exec_of_check_none (by decide) hc, rfl, rfl, rfl, rfl, decode_pLen_toNat,
      (finishOk_operationEffect_onlyRegsChange (i := .decode) (by decide) (by decide) (by decide)).mono (by decide)⟩
  case short => exact exec_decode_fails (decodeCheck_eq_some.mpr (.inl ⟨hshort, rfl⟩))
  case sentinel => exact exec_decode_fails (decodeCheck_eq_some.mpr (.inr (.inl ⟨hlen, h0, rfl⟩)))
  case length => exact exec_decode_fails (decodeCheck_eq_some.mpr (.inr (.inr (.inl ⟨hlen, h0, hne, rfl⟩))))
  case checksum =>
    subst hn
    exact exec_decode_fails (decodeCheck_eq_some.mpr
      (.inr (.inr (.inr (.inl ⟨hlen, h0, hfits, hcrc.trans_eq (receivedCrc_eq_ibufHalf s _), rfl⟩)))))
  case address =>
    subst hn
    exact exec_decode_fails (decodeCheck_eq_some.mpr
      (.inr (.inr (.inr (.inr ⟨hlen, h0, hfits, hcrc.trans (receivedCrc_eq_ibufHalf s _),
        not_validAddress_of_zero_or_gt haddr, rfl⟩)))))

/-- Settles O38: each clause is one case of `replyUnpackCheck_eq_none` or `replyUnpackCheck_eq_some`; a channel is by definition the two
bytes side by side, the high one first. -/
theorem replyUnpackResult : Obligations.ReplyUnpackResult := by
  refine ⟨hasCode_opcode .replyUnpack, fun s hlen hinside => ?success, fun s hlen => ?length, fun s hlen hpast => ?range⟩
  case success =>
    have hc : replyUnpackCheck s = none := replyUnpackCheck_eq_none.mpr ⟨hlen, hinside⟩
    exact ⟨_, exec_of_check_none (by decide) hc, rfl, rfl, rfl, rfl, rfl,
      (finishOk_operationEffect_onlyRegsChange (i := .replyUnpack) (by decide) (by decide) (by decide)).mono (by decide)⟩
  case length => exact exec_fails (i := .replyUnpack) (by decide) (replyUnpackCheck_eq_some.mpr (.inl ⟨hlen, rfl⟩))
  case range => exact exec_fails (i := .replyUnpack) (by decide) (replyUnpackCheck_eq_some.mpr (.inr ⟨hlen, hpast, rfl⟩))

/-! ### What a success guarantees -/

/-- A frame whose declared length matches IN_LEN has at most 261 bytes (42_frame_decoder.md R152, R153). -/
theorem inLen_le_of_length (h : s.declaredLen + 6 = s.inLen.toNat) : s.inLen.toNat ≤ 261 := by
  have hlt := declaredLen_lt s
  omega

/-- Settles O35: the five checks, restated for the state a success leaves, where IBUF and IN_LEN are as before. -/
theorem decodeSuccessGuarantees : Obligations.DecodeSuccessGuarantees := by
  intro s t h hok
  obtain ⟨hc, rfl, hN⟩ := exec_decode_of_ok h hok
  obtain ⟨hlen, h0, hfits, hcrc, hlo, hhi⟩ := decodeCheck_eq_none.mp hc
  rw [hN]
  refine ⟨hlen, inLen_le_of_length hfits, h0, rfl, ?inLen, hlo, hhi, rfl, ?checksum, rfl⟩
  case inLen => exact hfits.symm.trans (Nat.add_comm _ _)
  case checksum =>
    rw [memRead_two]
    exact congrArg BitVec.toNat hcrc.symm

/-! ### What DECODE reads -/

/-- The recomputed checksum reads nothing of IBUF at or above index 4 + N (42_frame_decoder.md R153). -/
theorem inboundCrc_congr {n : Nat} (hb : ∀ k, k < 4 + n → s'.ibufByte k = s.ibufByte k) :
    s'.inboundCrc n = s.inboundCrc n :=
  congrArg crc16 (readBytes_congr fun k hk => hb (1 + k) (by omega))

/-- Two states agree on what the checks of DECODE reach in the first of them: each check's operands only once the check before it
has passed (42_frame_decoder.md R153). -/
structure SameReached (s s' : State) : Prop where
  inLen : s'.inLen = s.inLen
  first : 6 ≤ s.inLen.toNat → s'.ibufByte 0 = s.ibufByte 0
  length : 6 ≤ s.inLen.toNat → s.ibufByte 0 = 0x01#8 → s'.ibufByte 3 = s.ibufByte 3
  frame : 6 ≤ s.inLen.toNat → s.ibufByte 0 = 0x01#8 → s.declaredLen + 6 = s.inLen.toNat →
    ∀ k, k < s.inLen.toNat → s'.ibufByte k = s.ibufByte k

/-- The first failing check is a function of what the checks reach (42_frame_decoder.md R153). -/
theorem SameReached.decodeCheck_eq (h : SameReached s s') : decodeCheck s' = decodeCheck s := by
  by_cases hshort : s.inLen.toNat < 6
  · simp [decodeCheck, h.inLen, hshort]
  have hlen : 6 ≤ s.inLen.toNat := Nat.not_lt.mp hshort
  by_cases h0 : s.ibufByte 0 = 0x01#8
  case neg => simp [decodeCheck, h.inLen, h.first hlen, h0]
  have hN : s'.declaredLen = s.declaredLen := congrArg BitVec.toNat (h.length hlen h0)
  by_cases hfits : s.declaredLen + 6 = s.inLen.toNat
  case neg => simp [decodeCheck, h.inLen, h.first hlen, hN, hfits]
  have hframe := h.frame hlen h0 hfits
  have hcrc : s'.inboundCrc s.declaredLen = s.inboundCrc s.declaredLen := inboundCrc_congr fun k hk => hframe k (by omega)
  have hfield : s'.ibufHalf (4 + s.declaredLen) = s.ibufHalf (4 + s.declaredLen) :=
    congrArg₂ bytesHalf (hframe _ (by omega)) (hframe _ (by omega))
  simp only [decodeCheck, h.inLen, h.first hlen, hN, hcrc, hfield, hframe 1 (by omega)]

/-- What DECODE answers is a function of what its checks reach: STATUS, and on success the four registers it exposes
(42_frame_decoder.md R153). -/
theorem SameReached.exec_decode {t' : State} (h : SameReached s s') (ht : exec .decode s = .next t)
    (ht' : exec .decode s' = .next t') : t'.status = t.status ∧
      (t.status.getLsbD 0 = true → t'.dAddr = t.dAddr ∧ t'.dCmd = t.dCmd ∧ t'.pOff = t.pOff ∧ t'.pLen = t.pLen) := by
  cases hc : decodeCheck s with
  | none =>
    have hc' : decodeCheck s' = none := h.decodeCheck_eq.trans hc
    obtain ⟨hlen, h0, hfits, -, -⟩ := decodeCheck_eq_none.mp hc
    have hframe := h.frame hlen h0 hfits
    obtain rfl := Host.Outcome.next.inj ((execDecode_of_none hc).symm.trans ht)
    obtain rfl := Host.Outcome.next.inj ((execDecode_of_none hc').symm.trans ht')
    have hN : s'.declaredLen = s.declaredLen := congrArg BitVec.toNat (h.length hlen h0)
    exact ⟨rfl, fun _ => ⟨hframe 1 (by omega), hframe 2 (by omega), rfl, congrArg (BitVec.ofNat 9) hN⟩⟩
  | some c =>
    have hc' : decodeCheck s' = some c := h.decodeCheck_eq.trans hc
    obtain rfl := Host.Outcome.next.inj ((execDecode_of_some hc).symm.trans ht)
    obtain rfl := Host.Outcome.next.inj ((execDecode_of_some hc').symm.trans ht')
    exact ⟨rfl, fun hok => by simp [State.raiseFail] at hok⟩

/-- Settles O36: noninterference is `SameReached.exec_decode`; beyond 261 bytes check 3 cannot pass (`inLen_le_of_length`), so beyond 512
one of checks 2 and 3 fails. -/
theorem decodeReadsOnlyTheInboundFrame : Obligations.DecodeReadsOnlyTheInboundFrame := by
  refine ⟨fun s s' t t' hin h0 h3 hframe => ?reads, fun s => inLen_le_of_length, fun s hlong => ?long⟩
  case reads =>
    exact SameReached.exec_decode ⟨hin, h0, h3, fun hlen hs hfits => hframe hlen hs hfits (inLen_le_of_length hfits)⟩
  case long =>
    have hlen : 6 ≤ s.inLen.toNat := by omega
    by_cases h0 : s.ibufByte 0 = 0x01#8
    case neg =>
      obtain ⟨t, ht, hst, -⟩ := exec_decode_fails (decodeCheck_eq_some.mpr (.inr (.inl ⟨hlen, h0, rfl⟩)))
      exact ⟨t, ht, hst.trans (if_pos h0).symm⟩
    case pos =>
      have hne : s.declaredLen + 6 ≠ s.inLen.toNat := fun hfits => by
        have hmax := inLen_le_of_length hfits
        omega
      obtain ⟨t, ht, hst, -⟩ := exec_decode_fails (decodeCheck_eq_some.mpr (.inr (.inr (.inl ⟨hlen, h0, hne, rfl⟩))))
      exact ⟨t, ht, hst.trans (if_neg (not_not_intro h0)).symm⟩

/-! ### A flipped bit of the checksum -/

theorem xor_bit_ne (b : Byte) {bit : Nat} (h : bit < 8) : b ^^^ (1#8 <<< bit) ≠ b := by
  intro heq
  have hbit := congrArg (·.getLsbD bit) heq
  simp [h] at hbit

/-- Changing one of its two bytes changes a 16-bit field of IBUF (20_memory.md R60). -/
theorem ibufHalf_ne {a x : Nat} (hx : x = a ∨ x = a + 1) (hne : s'.ibufByte x ≠ s.ibufByte x) :
    s'.ibufHalf a ≠ s.ibufHalf a := by
  intro heq
  obtain ⟨hlo, hhi⟩ := bytesHalf_injective heq
  rcases hx with rfl | rfl
  · exact hne hlo
  · exact hne hhi

/-- Settles O37: the flip is outside what the first three checks and the recomputed checksum read, and it changes the received checksum
(`ibufHalf_ne`), which matched before. -/
theorem checksumBitFlipIsRejected : Obligations.ChecksumBitFlipIsRejected := by
  intro s t s' flipped bit h hok hflipped hbit hin hflip hothers
  obtain ⟨hc, rfl, hN⟩ := exec_decode_of_ok h hok
  obtain ⟨hlen, h0, hfits, hcrc, -⟩ := decodeCheck_eq_none.mp hc
  rw [hN] at hflipped
  have hbefore : ∀ a, a < 4 + s.declaredLen → s'.ibufByte a = s.ibufByte a := fun a ha => hothers a (by omega)
  have hN' : s'.declaredLen = s.declaredLen := congrArg BitVec.toNat (hbefore 3 (by omega))
  have hcrc' : s'.inboundCrc s.declaredLen = s.inboundCrc s.declaredLen := inboundCrc_congr hbefore
  have hfield : s'.ibufHalf (4 + s.declaredLen) ≠ s.ibufHalf (4 + s.declaredLen) :=
    ibufHalf_ne (x := flipped) (by omega) (hflip ▸ xor_bit_ne _ hbit)
  have hcheck : decodeCheck s' = some .dChecksum := by
    refine decodeCheck_eq_some.mpr (.inr (.inr (.inr (.inl ⟨hin ▸ hlen, (hbefore 0 (by omega)).trans h0, ?_, ?_, rfl⟩))))
    · rwa [hN', hin]
    · rw [hN', hcrc', hcrc]
      exact hfield.symm
  obtain ⟨t', ht', hst, -⟩ := exec_decode_fails hcheck
  exact ⟨t', ht', hst⟩

end Sys2Proof.Machine
end

section
/-! PROOFS. The control operations (43_control.md R180, R181): NOP answers the state it is given, and a reserved code can only fail
with ILLEGAL_OP. -/

namespace Sys2Proof.Machine

variable {i : Instr} {s : State}

/-! ### The code a CTRL write selects -/

/-- The operation a command word decodes to is the one whose code stands in bits [3:0] of the word (30_encoding.md R80, R81). -/
theorem opcode_decode_toNat (data : Word) : (decode data).opcode.toNat = data.toNat % 16 := by
  rw [decode, opcode_decodeOp]
  exact BitVec.extractLsb'_toNat 0 4 data

/-! ### NOP -/

/-- Settles O39: the first clause is the meaning of NOP, and a word with bits [3:0] = 0 runs NOP (`hasCode_opcode`). -/
theorem nopChangesNothing : Obligations.NopChangesNothing :=
  ⟨fun _ => rfl, fun s data hdata => hasCode_opcode .nop s data hdata⟩

/-! ### The reserved codes -/

/-- The operations with a code of at least 8 are the reserved ones, and the check of each fails in every state (43_control.md
R181). -/
theorem operationCheck_of_reserved (h : 8 ≤ i.opcode.toNat) : operationCheck i s = some .illegalOp := by
  cases i with
  | nop | crcInit | crcByte | crcBuf | encode | decode | replyPack | replyUnpack => exact absurd h (by decide)
  | reserved8 | reserved9 | reservedA | reservedB | reservedC | reservedD | reservedE | reservedF => rfl

/-- The one outcome of a reserved code, a failure like any other (43_control.md R181, 60_exceptions.md R204). -/
theorem exec_reserved (s : State) (h : 8 ≤ i.opcode.toNat) :
    ∃ t, exec i s = .next t ∧ t.status = statusWord i.opcode 0xB 0 ∧ OnlyRegsChange [.status] s t :=
  exec_fails (c := .illegalOp) (by rintro rfl; exact absurd h (by decide)) (operationCheck_of_reserved h)

/-- LASTOP, ERR = 0xB and OK = 0 in their places in STATUS (10_state.md R22). -/
theorem statusWord_illegalOp_toNat (op : OpField) : (statusWord op 0xB 0).toNat = op.toNat * 256 + 0xB0 := by
  revert op
  decide

/-- Settles O40: the listed operations and the words with bits [3:0] of at least 8 run a reserved code, whose outcome is
`exec_reserved`. -/
theorem reservedCodesReportIllegalOp : Obligations.ReservedCodesReportIllegalOp := by
  refine ⟨fun s p hp => ?operation, fun s data hdata => ?ctrlWrite⟩
  case operation =>
    have hrow : 8 ≤ p.1.opcode.toNat ∧ statusWord p.1.opcode 0xB 0 = p.2 := by
      revert p
      decide
    obtain ⟨hcode, hstatus⟩ := hrow
    exact hstatus ▸ exec_reserved s hcode
  case ctrlWrite =>
    have hcode : (decode data).opcode.toNat = data.toNat % 16 := opcode_decode_toNat data
    obtain ⟨t, ht, hst, hframe⟩ := exec_reserved s (hcode ▸ hdata)
    exact ⟨t, ht, by rw [hst, statusWord_illegalOp_toNat, hcode], hframe⟩

end Sys2Proof.Machine
end

section
/-! PROOFS. How operations fail and what bounds them (60_exceptions.md R204, R205; 20_memory.md R57): a failure writes STATUS, and OUT_LEN
for ENCODE, and nothing else; no operation writes or reads a buffer byte at an index of 512 or more. -/

namespace Sys2Proof.Machine

variable {i : Instr} {s s' t t' : State} {c : FailCode} {a : Nat}

/-! ### A failure is precise -/

/-- STATUS after a failure, as LASTOP, ERR and four bits 0: the reserved ones and OK (10_state.md R22). -/
theorem statusWord_fail (l e : BitVec 4) : statusWord l e 0 = l ++ e ++ 0#4 := by
  revert l e
  decide

/-- Of the operations other than NOP, ENCODE alone writes a register besides STATUS when it fails (60_exceptions.md R204). -/
theorem regsWrittenOnFailure_eq (hi : i ≠ .nop) :
    regsWrittenOnFailure i = if i = .encode then [.status, .outLen] else [.status] := by
  cases i with
  | nop => exact absurd rfl hi
  | crcInit | crcByte | crcBuf | encode | decode | replyPack | replyUnpack => rfl
  | reserved8 | reserved9 | reservedA | reservedB | reservedC | reservedD | reservedE | reservedF => rfl

/-- Settles O43: an operation that ends with OK = 0 failed a check (`exec_ends`); the code is one of its own, and the frame is that of
every failure. -/
theorem failureIsPrecise : Obligations.FailureIsPrecise := by
  intro i s t hi h hfail
  rcases exec_ends hi h with ⟨-, rfl⟩ | ⟨c, hc, rfl⟩
  case inl => simp at hfail
  case inr =>
    refine ⟨⟨c, mem_failuresOf_of_check_some hc, operationFail_status.trans (statusWord_fail _ _)⟩, ?outLen, ?frame⟩
    case outLen =>
      rintro rfl
      exact operationFail_encode_outLen
    case frame => exact regsWrittenOnFailure_eq hi ▸ operationFail_onlyRegsChange hi

/-! ### No write at 512 or above -/

theorem exec_ibufByte_of_ge (h : exec i s = .next t) (ha : 512 ≤ a) : t.ibufByte a = s.ibufByte a := by
  obtain ⟨-, -, -, hibuf, -⟩ := writeMatrix i s t h
  exact hibuf a (.inr (by omega))

/-- ENCODE's checks bound the frame by 261 bytes (41_frame_encoder.md R121), and no other operation writes OBUF. -/
theorem exec_obufByte_of_ge (h : exec i s = .next t) (ha : 512 ≤ a) : t.obufByte a = s.obufByte a := by
  by_cases hi : i = .encode
  case neg => exact exec_obufSame_of_ne_encode hi h a
  case pos =>
    subst hi
    rcases exec_ends (by decide) h with ⟨hc, rfl⟩ | ⟨c, -, rfl⟩
    case inl =>
      obtain ⟨-, hlen, -, -⟩ := encodeCheck_eq_none.mp hc
      exact obufByte_operationEffect (.inr (by omega))
    case inr => exact operationFail_obufSame a

/-! ### No dependence on a byte at 512 or above -/

/-- Two states agree on all the host can read: every register, and the 512 bytes of each buffer. -/
structure SameVisible (s s' : State) : Prop where
  regs : RegsSame [] s s'
  ibuf : ∀ a, a < 512 → s'.ibufByte a = s.ibufByte a
  obuf : ∀ a, a < 512 → s'.obufByte a = s.obufByte a

theorem SameVisible.sameOperands (h : SameVisible s s') : SameOperands i s s' :=
  ⟨fun r _ => h.regs r List.not_mem_nil, fun _ => h.ibuf⟩

/-- Two actions that leave all but some registers as they were, and agree on those, keep an agreement on the registers. -/
theorem RegsSame.of_agree {changed : List Reg} (h : RegsSame [] s s') (ht : RegsSame changed s t)
    (ht' : RegsSame changed s' t') (hagree : ∀ r ∈ changed, t'.readReg r = t.readReg r) : RegsSame [] t t' := by
  intro r hr
  by_cases hm : r ∈ changed
  · exact hagree r hm
  · exact (ht' r hm).trans ((h r hr).trans (ht r hm).symm)

/-- The registers a failure writes depend on the operation and its code only (60_exceptions.md R204). -/
theorem operationFail_regs_eq (hi : i ≠ .nop) (s s' : State) :
    ∀ r ∈ regsWrittenOnFailure i, (operationFail i s' c).readReg r = (operationFail i s c).readReg r := by
  intro r hr
  have hstatus : (operationFail i s' c).readReg .status = (operationFail i s c).readReg .status := by
    simp only [State.readReg, operationFail_status]
  rw [regsWrittenOnFailure_eq hi] at hr
  split at hr
  case isTrue he =>
    subst he
    rcases List.mem_pair.mp hr with rfl | rfl
    · exact hstatus
    · rfl
  case isFalse =>
    obtain rfl := List.mem_singleton.mp hr
    exact hstatus

/-- Two failures of one operation with one code keep the agreement. -/
theorem SameVisible.after_fail (h : SameVisible s s') (hi : i ≠ .nop) :
    SameVisible (operationFail i s c) (operationFail i s' c) where
  regs := h.regs.of_agree (operationFail_regsSame hi) (operationFail_regsSame hi) (operationFail_regs_eq hi s s')
  ibuf a ha := (operationFail_ibufSame a).trans ((h.ibuf a ha).trans (operationFail_ibufSame a).symm)
  obuf a ha := (operationFail_obufSame a).trans ((h.obuf a ha).trans (operationFail_obufSame a).symm)

/-- An effect stores the same bytes in IBUF, or none. -/
theorem SameVisible.operationEffect_ibuf (h : SameVisible s s') (ha : a < 512) :
    (operationEffect i s').ibufByte a = (operationEffect i s).ibufByte a := by
  by_cases hw : i ≠ .replyPack ∨ 8 ≤ a
  · rw [ibufByte_operationEffect hw, ibufByte_operationEffect hw, h.ibuf a ha]
  · obtain ⟨hi, hlt⟩ := not_or.mp hw
    obtain rfl := not_not.mp hi
    exact operationEffect_replyPack_ibuf_eq h.sameOperands (Nat.not_le.mp hlt)

/-- An effect stores the same bytes in OBUF, or none. -/
theorem SameVisible.operationEffect_obuf (h : SameVisible s s') (hc : operationCheck i s = none) (ha : a < 512) :
    (operationEffect i s').obufByte a = (operationEffect i s).obufByte a := by
  by_cases hw : i ≠ .encode ∨ 6 + s.pLen.toNat ≤ a
  · have hw' : i ≠ .encode ∨ 6 + s'.pLen.toNat ≤ a := by
      rwa [(h.sameOperands (i := .encode)).pLen (by decide)]
    rw [obufByte_operationEffect hw, obufByte_operationEffect hw', h.obuf a ha]
  · obtain ⟨hi, hlt⟩ := not_or.mp hw
    obtain rfl := not_not.mp hi
    exact operationEffect_encode_obuf_eq h.sameOperands hc (Nat.not_le.mp hlt)

/-- Two successes of one operation keep the agreement: what a success writes is a function of the operands
(`operationsAreFunctionsOfTheirOperands`). -/
theorem SameVisible.after_success (h : SameVisible s s') (hi : i ≠ .nop) (hc : operationCheck i s = none) :
    SameVisible ((operationEffect i s).finishOk i.opcode) ((operationEffect i s').finishOk i.opcode) where
  regs := by
    have hops : SameOperands i s s' := h.sameOperands
    obtain ⟨-, hresults⟩ := operationsAreFunctionsOfTheirOperands i s s' _ _ hi hops.regs hops.bytes
      (exec_of_check_none hi hc) (exec_of_check_none hi ((operationCheck_eq hops).trans hc))
    obtain ⟨hwritten, -, -⟩ := hresults (by simp)
    exact h.regs.of_agree (finishOk_operationEffect_regsSame hi) (finishOk_operationEffect_regsSame hi) hwritten
  ibuf _ ha := h.operationEffect_ibuf ha
  obuf _ ha := h.operationEffect_obuf hc ha

/-- Every operation keeps the agreement: its checks decide alike (`operationCheck_eq`), then both runs have the effect, or both
fail with one code. -/
theorem SameVisible.after_exec (h : SameVisible s s') (ht : exec i s = .next t) (ht' : exec i s' = .next t') :
    SameVisible t t' := by
  by_cases hi : i = .nop
  case pos =>
    subst hi
    rwa [exec_nop ht, exec_nop ht']
  case neg =>
    have hcheck : operationCheck i s' = operationCheck i s := operationCheck_eq h.sameOperands
    rcases exec_ends hi ht with ⟨hc, rfl⟩ | ⟨c, hc, rfl⟩
    case inl =>
      obtain rfl := Host.Outcome.next.inj ((exec_of_check_none hi (hcheck.trans hc)).symm.trans ht')
      exact h.after_success hi hc
    case inr =>
      obtain rfl := Host.Outcome.next.inj ((exec_of_check_some (hcheck.trans hc)).symm.trans ht')
      exact h.after_fail hi

/-- Settles O45: the bounds on what is written are `exec_ibufByte_of_ge` and `exec_obufByte_of_ge`, independence of the rest is
`SameVisible.after_exec`. -/
theorem operationsStayInsideTheBuffers : Obligations.OperationsStayInsideTheBuffers := by
  refine ⟨fun i s t h a ha => ⟨exec_ibufByte_of_ge h ha, exec_obufByte_of_ge h ha⟩, ?independent⟩
  intro i s s' t t' hregs hbytes ht ht'
  have hsame : SameVisible s s' := ⟨hregs, fun a ha => (hbytes a ha).1, fun a ha => (hbytes a ha).2⟩
  have hafter : SameVisible t t' := hsame.after_exec ht ht'
  exact ⟨hafter.regs, fun a ha => ⟨hafter.ibuf a ha, hafter.obuf a ha⟩⟩

end Sys2Proof.Machine
end

section
/-! PROOFS. Reset (70_reset_and_hazards.md R230, R231): the reset input leaves the registers and the invariants of the first reset, and
draws the bytes of both buffers anew. -/

namespace Sys2Proof.Machine

variable {s : State}

/-! ### What the reset input leaves -/

/-- A later reset gives every register the value the first one gives it: the count of resets and the pending inputs, the two fields
in which they may differ, are no register's (R230). -/
@[simp] theorem State.readReg_hostReset (s : State) (r : Reg) : (hostReset s).readReg r = State.reset.readReg r := by
  cases r <;> rfl

/-- No byte of IBUF is written yet in the epoch that a reset begins, so every index reads as its fresh draw (R231). -/
@[simp] theorem State.ibufByte_hostReset (s : State) (a : Nat) :
    (hostReset s).ibufByte a = Config.ibufAtReset (s.resets + 1) a := rfl

/-- No byte of OBUF is written yet in the epoch that a reset begins, so every index reads as its fresh draw (R231). -/
@[simp] theorem State.obufByte_hostReset (s : State) (a : Nat) :
    (hostReset s).obufByte a = Config.obufAtReset (s.resets + 1) a := rfl

/-- A step with the reset input pending resets the block, then retires the input, which returns nothing to the host. -/
theorem step_of_reset {rest : List Input} (hp : s.port = .reset :: rest) : step s = .next (retire rest none (hostReset s)) :=
  step_of_serve hp rfl

/-! ### The invariants at reset -/

/-- The first reset meets the structural invariant as a later one does (`hostReset_inv`): it differs only in fields the invariant does
not speak of. -/
theorem reset_inv : State.reset.Inv :=
  (hostReset_inv (s := State.reset)).of_same rfl rfl rfl rfl reset_buffers_wf.1 rfl

/-- OUT_LEN is 0 at reset, so no frame is claimed to stand in OBUF, whose bytes are unspecified (R231). -/
theorem reset_outputIsFrame : State.reset.OutputIsFrame := fun hlen => absurd rfl hlen

/-! ### The statements -/

/-- Settles O14: the values of the first reset are read off the table of R230, those of a later one are the same
(`State.readReg_hostReset`). -/
theorem resetValues : Obligations.ResetValues := by
  refine ⟨rfl, rfl, ?zeroRegisters, fun s => ⟨hostReset_status s, hostReset_crcAcc s, State.readReg_hostReset s⟩, fun _ => rfl⟩
  case zeroRegisters => decide

/-- Settles O15: the step answers the retired `hostReset s`, and retiring an input touches neither a register nor a buffer. -/
theorem resetInputResets : Obligations.ResetInputResets := by
  intro s rest hp
  refine ⟨_, step_of_reset hp, fun r => ?register, fun a => ?ibuf, fun a => ?obuf, retire_port (hostReset s) rest none⟩
  case register => rw [State.readReg_retire, State.readReg_hostReset]
  case ibuf => rw [ibufByte_retire, State.ibufByte_hostReset]
  case obuf => rw [obufByte_retire, State.obufByte_hostReset]

/-- Settles O16. -/
theorem resetMeetsTheInvariants : Obligations.ResetMeetsTheInvariants := ⟨reset_inv, reset_outputIsFrame⟩

end Sys2Proof.Machine
end
